-- ==== Sys2Proof/Word.lean ====
section
/-! DEFINITION. The plain types of the block's numbers.

A count of microseconds (or of milliseconds) is a `Nat`: its width is the parameter `TIMER_BITS` (00_scope R5, 92 D2),
so it is not a bit vector of one width. The decoder reads `TIMER_BITS` bits of it, no operation of the block adds
beyond them, and the invariant `WidthInv` of Safety.lean says that every cell stays within them (log entry 9). -/

namespace Sys2Proof

/-- The 3-bit result `RESP` (10_state R27). -/
abbrev Resp := BitVec 3

end Sys2Proof
end

