-- ==== Sys2Proof/Config.lean ====
section
/-! DEFINITION. The parameters and named constants of 00_scope R5 and 30_encoding R70. -/

namespace Sys2Proof

/-- The parameters of the block, each a named argument of the model (00_scope R5; 92 D2, D6, D14, D15; 93 V6 to V9).
They stand in `State.cfg`, no step writes them, and a statement over all states holds for every value of them
(log entry 8). `PERIOD_MAX`, `T_REMAINDER_US` and `CMD_BITS` are derived below; `T_TICK` is `Config.tTickUs`. -/
structure Params where
  /-- `TIMER_BITS`, OPEN: the width of `TMR.period`, `TMR.cnt`, `TD.next_delay_us` and the immediates. -/
  timerBits : Nat
  /-- `IRQ_LAT_US`, OPEN: the largest number of TICK steps between the request and the IRQ step. -/
  irqLatUs : Nat
  /-- `T_SAMPLE_US`, OPEN by D14: the microseconds one presence sample consumes. -/
  tSampleUs : Nat
  /-- `T_RESET_LOW_US`: the reset low time. -/
  tResetLowUs : Nat
  /-- `T_SETTLE_US`: release to sample. -/
  tSettleUs : Nat
  /-- `T_PRESENCE_WINDOW_US`: release to return. -/
  tPresenceWindowUs : Nat
  /-- `T_SAMPLE_BUDGET_US`: the sampling cost subtracted from the window. -/
  tSampleBudgetUs : Nat
  /-- `T_IRQ_POST_RELEASE_US`: the period at the release in `reset_irq()`; an operand, the block never reads it. -/
  tIrqPostReleaseUs : Nat
  /-- `T_MS_US`: microseconds a `wait_ms` unit. -/
  tMsUs : Nat
  /-- `IRQ_SAMPLE_OFFSET_US`, OPEN: release to the foreground's sample in `reset_irq()`; the block never reads it. -/
  irqSampleOffsetUs : Nat
deriving DecidableEq, Repr

namespace Params

/-- `PERIOD_MAX` = 2^TIMER_BITS - 1 (00_scope R5). -/
def periodMax (p : Params) : Nat := 2 ^ p.timerBits - 1

/-- `CMD_BITS`: eight bits of `OP`, eight of format A's `nlvl`, `ph` and reserved bits, and its two counts; 48 with
`TIMER_BITS` = 16 (00_scope R5, 92 D4). How the word grows is DEDUCED from 30_encoding R55, R58, R59 (log entry 9). -/
def cmdBits (p : Params) : Nat := 2 * p.timerBits + 16

/-- `T_REMAINDER_US`, the budget computed from its sub-costs (42_blocking_reset R114, 30_encoding R70). The spec does not
say what it is when the window is shorter than settle time and sampling budget together (45 R146 says only when it cannot
go negative); that the subtraction then gives 0, and an admitted `RESET` is refused `zero_period` at `B8`, is DESIGN
CHOICE, log entry 18. `literalsFit` rules the case out. -/
def tRemainderUs (p : Params) : Nat := p.tPresenceWindowUs - p.tSettleUs - p.tSampleBudgetUs

/-- A count that `TIMER_BITS` bits hold: at most `PERIOD_MAX` (10_state R14, R23). -/
def fits (p : Params) (u : Nat) : Bool := decide (u < 2 ^ p.timerBits)

/-- A legal period, 1 to `PERIOD_MAX` (10_state R14). -/
def legalPeriod (p : Params) (u : Nat) : Bool := decide (u ≠ 0) && p.fits u

/-- The width holds every duration that is fixed in the hardware: each is a legal period (92 D2 "holds every
literal"). -/
def literalsFit (p : Params) : Bool :=
  p.legalPeriod p.tResetLowUs && p.legalPeriod p.tSettleUs && p.legalPeriod p.tRemainderUs && p.legalPeriod p.tMsUs

/-- The window the interrupt-driven sample must fit in: the offset and the cost of the sample end before
the period after the release does (43_irq_state_machine R130, 70 R193). A host's duty; the block checks nothing. -/
def sampleFits (p : Params) : Bool := decide (p.irqSampleOffsetUs + p.tSampleUs < p.tIrqPostReleaseUs)

/-- The durations are those the source says "must be reproduced bit-for-bit in microseconds" (00_scope R5,
30_encoding R70). -/
def specDurations (p : Params) : Bool :=
  decide (p.tResetLowUs = 480) && decide (p.tSettleUs = 60) && decide (p.tPresenceWindowUs = 180) &&
    decide (p.tSampleBudgetUs = 1) && decide (p.tIrqPostReleaseUs = 120) && decide (p.tMsUs = 1000)

end Params

/-- A command word, bit 0 the least significant, of `CMD_BITS` bits (30_encoding R55, R58; 00_scope R9). -/
abbrev CmdWord (p : Params) := BitVec p.cmdBits

namespace Config

/-- `T_TICK`: the microseconds of real time of one TICK step (00_scope R5, 92 D1). -/
def tTickUs : Nat := 1

/-- The values the spec uses in every worked example (00_scope R5, 30_encoding R70). -/
def defaults : Params where
  timerBits := 16
  irqLatUs := 0
  tSampleUs := 1
  tResetLowUs := 480
  tSettleUs := 60
  tPresenceWindowUs := 180
  tSampleBudgetUs := 1
  tIrqPostReleaseUs := 120
  tMsUs := 1000
  irqSampleOffsetUs := 60

end Config

end Sys2Proof
end

