-- ==== Sys2Proof/Syntax.lean ====
section
/-! DEFINITION. The closed sets of the block and its fourteen commands (30_encoding R60 to R63). -/

namespace Sys2Proof

/-- A Bus Level: `high` is released, `low` actively driven (30_encoding R60, 00_scope glossary). -/
inductive Level where
  | low
  | high
deriving DecidableEq, Repr

/-- A pin direction (30_encoding R61). -/
inductive Direction where
  | input
  | output
deriving DecidableEq, Repr

/-- What the 3-bit cell `TD.phase` and the 3-bit field `ph` can hold (30_encoding R62): the six Reset
Phases of 10_state R22, and the two codes that name no phase. -/
inductive Phase where
  /-- initial drive-low phase -/
  | reset
  /-- reserved, must not be entered -/
  | writeZero
  /-- reserved, must not be entered -/
  | writeOne
  /-- reserved, must not be entered -/
  | read
  /-- one-shot phase of the final recovery window -/
  | singleStep
  /-- terminal -/
  | done
  /-- code 6: not a phase -/
  | code6
  /-- code 7: not a phase -/
  | code7
deriving DecidableEq, Repr

/-- The fourteen opcodes (30_encoding R63). -/
inductive Opcode where
  | waitUs | waitMs
  | drive | setdir | sample
  | reset
  | arm | poll | waitdone
  | tsetp | tstart | tien | tclrp | tqp
deriving DecidableEq, Repr

/-- The fourteen commands with their operands, one constructor a row of the opcode table (30_encoding R63).
Operands keep every value their field can hold; `Instr.wf` says which the spec gives a meaning. -/
inductive Instr where
  /-- `wait(duration_us)` (40 R81) -/
  | waitUs (imm : Nat)
  /-- `wait_ms(duration_ms)` (40 R85) -/
  | waitMs (imm : Nat)
  /-- `drive(level)` (41 R95) -/
  | drive (level : Level)
  /-- `set_direction(output | input)` (41 R96) -/
  | setdir (dir : Direction)
  /-- `sample()` (41 R97) -/
  | sample
  /-- `reset()` (42 R110) -/
  | reset
  /-- `arm(phase, period_us, next_delay_us, next_level)` (43 R120) -/
  | arm (ph : Phase) (per nd : Nat) (nlvl : Level)
  /-- `poll()` (43 R128) -/
  | poll
  /-- `wait_done()` (43 R129) -/
  | waitdone
  /-- `set_period(microseconds)` (44 R140) -/
  | tsetp (imm : Nat)
  /-- `start()` (44 R141) -/
  | tstart
  /-- `enable_interrupt()` (44 R142) -/
  | tien
  /-- `clear_pending_interrupt_flag()` (44 R143) -/
  | tclrp
  /-- `interrupt_pending()` (44 R144) -/
  | tqp
deriving DecidableEq, Repr

end Sys2Proof
end

