-- ==== Sys2Proof/WellFormed.lean ====
section
/-! DEFINITION. Which operands the spec gives a meaning, whatever the state (30_encoding R64). -/

namespace Sys2Proof

/-- The operand combinations `ARM` admits in an inert state (43_irq_state_machine R121): `Reset` with a
non-zero next delay and the level `high`, or `SingleStep` with any; the first period never 0. -/
def Instr.armOperandsOk (ph : Phase) (per nd : Nat) (nlvl : Level) : Bool :=
  match ph with
  | .reset => decide (per ≠ 0) && decide (nd ≠ 0) && decide (nlvl = .high)
  | .singleStep => decide (per ≠ 0)
  | .writeZero => false
  | .writeOne => false
  | .read => false
  | .done => false
  | .code6 => false
  | .code7 => false

/-- A well-formed command: none of the operand cases of 30_encoding R64 refuses it. An ill-formed one still
decodes; executing it is refused by name (`zero_period`, `no_such_phase`, `reserved_phase`, `bad_arm`). -/
def Instr.wf : Instr → Bool
  | .waitUs imm => decide (imm ≠ 0)
  | .waitMs _ => true
  | .drive _ => true
  | .setdir _ => true
  | .sample => true
  | .reset => true
  | .arm ph per nd nlvl => Instr.armOperandsOk ph per nd nlvl
  | .poll => true
  | .waitdone => true
  | .tsetp imm => decide (imm ≠ 0)
  | .tstart => true
  | .tien => true
  | .tclrp => true
  | .tqp => true

/-- The counts of a command fit the fields of a command word with the parameters `p`: only such a command can be
presented (40 R84 "cannot be encoded", 30_encoding R58). -/
def Instr.fits (p : Params) : Instr → Bool
  | .waitUs imm => p.fits imm
  | .waitMs imm => p.fits imm
  | .drive _ => true
  | .setdir _ => true
  | .sample => true
  | .reset => true
  | .arm _ per nd _ => p.fits per && p.fits nd
  | .poll => true
  | .waitdone => true
  | .tsetp imm => p.fits imm
  | .tstart => true
  | .tien => true
  | .tclrp => true
  | .tqp => true

end Sys2Proof
end

