-- ==== Sys2Proof/Decode.lean ====
section
/-! DEFINITION. The command word read and written (30_encoding R55 to R64): decoder, then encoder. -/

namespace Sys2Proof

/-- Why a word is no command (30_encoding R64). -/
inductive DecodeError where
  /-- `OP` is none of the fourteen: `refuse(unknown_opcode)` (93 U1). -/
  | unknownOpcode
  /-- A reserved bit of the format is 1: `refuse(reserved_bit)` (93 U2). -/
  | reservedBit
deriving DecidableEq, Repr

/-- The four formats (30_encoding R56 to R59). -/
inductive Format where
  | n | b | i | a
deriving DecidableEq, Repr

variable {p : Params}

/-- The field of `w` whose lowest bit is `lo` and whose width is `len` (00_scope R9). -/
def bitField (w : CmdWord p) (lo len : Nat) : BitVec len := w.extractLsb' lo len

/-- The word that holds `b` with its lowest bit at `lo` and 0 everywhere else (00_scope R9). -/
def placeField {len : Nat} (b : BitVec len) (lo : Nat) : CmdWord p := b.setWidth p.cmdBits <<< lo

/-! Where the fields lie (30_encoding R55 to R59). With `TIMER_BITS` = 16: `OP` 47:40, `nlvl` 36, `ph` 34:32,
`per16` 31:16, `nd16` and `imm16` 15:0. Another `TIMER_BITS` moves them as the counts below them grow or shrink
(30_encoding R58; DEDUCED for format A, log entry 9). -/

/-- The lowest bit of `OP`. -/
def Params.opAt (p : Params) : Nat := 2 * p.timerBits + 8

/-- The bit `nlvl` of format A. -/
def Params.nlvlAt (p : Params) : Nat := 2 * p.timerBits + 4

/-- The lowest bit of `ph` of format A. -/
def Params.phAt (p : Params) : Nat := 2 * p.timerBits

/-- The lowest bit of `per16` of format A. -/
def Params.perAt (p : Params) : Nat := p.timerBits

/-- The lowest bit of `b`, `imm16` and `nd16`. -/
def Params.lowAt (_ : Params) : Nat := 0

/-- Level codes (30_encoding R60): `low` = 0, `high` = 1. -/
def Level.code : Level → BitVec 1
  | .low => 0#1
  | .high => 1#1

/-- The level a 1-bit field holds (30_encoding R60). -/
def Level.ofCode (c : BitVec 1) : Level := if c = 0#1 then .low else .high

/-- Direction codes (30_encoding R61): `input` = 0, `output` = 1. -/
def Direction.code : Direction → BitVec 1
  | .input => 0#1
  | .output => 1#1

/-- The direction a 1-bit field holds (30_encoding R61). -/
def Direction.ofCode (c : BitVec 1) : Direction := if c = 0#1 then .input else .output

/-- Phase codes, in the order the source lists the set (30_encoding R62). -/
def Phase.code : Phase → BitVec 3
  | .reset => 0#3
  | .writeZero => 1#3
  | .writeOne => 2#3
  | .read => 3#3
  | .singleStep => 4#3
  | .done => 5#3
  | .code6 => 6#3
  | .code7 => 7#3

/-- What a 3-bit field holds (30_encoding R62). -/
def Phase.ofCode (c : BitVec 3) : Phase :=
  if c = 0#3 then .reset else if c = 1#3 then .writeZero else if c = 2#3 then .writeOne
  else if c = 3#3 then .read else if c = 4#3 then .singleStep else if c = 5#3 then .done
  else if c = 6#3 then .code6 else .code7

/-- `OP`, bits 47:40 (30_encoding R63). -/
def Opcode.code : Opcode → BitVec 8
  | .waitUs => 0x10#8
  | .waitMs => 0x11#8
  | .drive => 0x20#8
  | .setdir => 0x21#8
  | .sample => 0x22#8
  | .reset => 0x30#8
  | .arm => 0x40#8
  | .poll => 0x41#8
  | .waitdone => 0x42#8
  | .tsetp => 0x50#8
  | .tstart => 0x51#8
  | .tien => 0x52#8
  | .tclrp => 0x53#8
  | .tqp => 0x54#8

/-- The fourteen rows of the opcode map, in the table's order (30_encoding R63). -/
def Opcode.all : List Opcode :=
  [.waitUs, .waitMs, .drive, .setdir, .sample, .reset, .arm, .poll, .waitdone, .tsetp, .tstart, .tien,
    .tclrp, .tqp]

/-- The format of each command (30_encoding R63). -/
def Opcode.format : Opcode → Format
  | .waitUs => .i
  | .waitMs => .i
  | .drive => .b
  | .setdir => .b
  | .sample => .n
  | .reset => .n
  | .arm => .a
  | .poll => .n
  | .waitdone => .n
  | .tsetp => .i
  | .tstart => .n
  | .tien => .n
  | .tclrp => .n
  | .tqp => .n

/-- The bits a format gives to its operands (30_encoding R56 to R59). -/
def Format.operandBits (p : Params) : Format → CmdWord p
  | .n => 0
  | .b => placeField (BitVec.allOnes 1) p.lowAt
  | .i => placeField (BitVec.allOnes p.timerBits) p.lowAt
  | .a =>
    placeField (BitVec.allOnes 1) p.nlvlAt ||| placeField (BitVec.allOnes 3) p.phAt |||
      placeField (BitVec.allOnes p.timerBits) p.perAt ||| placeField (BitVec.allOnes p.timerBits) p.lowAt

/-- The mask of a format: 1 on `OP` and on every reserved bit (30_encoding R56 to R59, R63). -/
def Format.mask (p : Params) (f : Format) : CmdWord p := ~~~ f.operandBits p

/-- The "mask" column of the opcode map (30_encoding R63). -/
def Opcode.mask (p : Params) (op : Opcode) : CmdWord p := op.format.mask p

/-- The "match" column of the opcode map: `OP` above zeros (30_encoding R63). -/
def Opcode.pattern (p : Params) (op : Opcode) : CmdWord p := placeField op.code p.opAt

/-- The command whose `OP` is `c`, if it is one of the fourteen (30_encoding R63, R64). -/
def Opcode.ofCode (c : BitVec 8) : Option Opcode := Opcode.all.find? fun op => op.code == c

/-- A count field of `w`, `TIMER_BITS` bits from `lo` (30_encoding R58, R59). -/
def countField (w : CmdWord p) (lo : Nat) : Nat := (bitField w lo p.timerBits).toNat

/-- The command of opcode `op` with its operands read from `w` (30_encoding R56 to R59, R69). -/
def Opcode.withOperands (op : Opcode) (w : CmdWord p) : Instr :=
  match op with
  | .waitUs => .waitUs (countField w p.lowAt)
  | .waitMs => .waitMs (countField w p.lowAt)
  | .drive => .drive (Level.ofCode (bitField w p.lowAt 1))
  | .setdir => .setdir (Direction.ofCode (bitField w p.lowAt 1))
  | .sample => .sample
  | .reset => .reset
  | .arm =>
    .arm (Phase.ofCode (bitField w p.phAt 3)) (countField w p.perAt) (countField w p.lowAt)
      (Level.ofCode (bitField w p.nlvlAt 1))
  | .poll => .poll
  | .waitdone => .waitdone
  | .tsetp => .tsetp (countField w p.lowAt)
  | .tstart => .tstart
  | .tien => .tien
  | .tclrp => .tclrp
  | .tqp => .tqp

/-- The decoder: by `OP` alone, then the mask checks the reserved bits (30_encoding R63, R64). Total. -/
def decode (p : Params) (w : CmdWord p) : Except DecodeError Instr :=
  match Opcode.ofCode (bitField w p.opAt 8) with
  | none => .error .unknownOpcode
  | some op => if w &&& op.mask p = op.pattern p then .ok (op.withOperands w) else .error .reservedBit

/-- The decoder over a word given as a number whose bits are numbered as the opcode table numbers them: the table
is that of `TIMER_BITS` = 16, its words are whole 48-bit words, so no byte order enters (20_memory R41); a number of
more bits is none. -/
def decodeTableWord (nbits w : Nat) : Option Instr :=
  if w % 2 ^ nbits < 2 ^ Config.defaults.cmdBits then
    (decode Config.defaults (BitVec.ofNat _ (w % 2 ^ nbits))).toOption
  else none

/-- The row of the opcode map a command belongs to (30_encoding R63). -/
def Instr.opcode : Instr → Opcode
  | .waitUs _ => .waitUs
  | .waitMs _ => .waitMs
  | .drive _ => .drive
  | .setdir _ => .setdir
  | .sample => .sample
  | .reset => .reset
  | .arm _ _ _ _ => .arm
  | .poll => .poll
  | .waitdone => .waitdone
  | .tsetp _ => .tsetp
  | .tstart => .tstart
  | .tien => .tien
  | .tclrp => .tclrp
  | .tqp => .tqp

/-- A count as the field of `TIMER_BITS` bits from `lo` holds it (30_encoding R58, R59). -/
def placeCount (u : Nat) (lo : Nat) : CmdWord p := placeField (BitVec.ofNat p.timerBits u) lo

/-- Format N (30_encoding R56). -/
def encodeN (p : Params) (op : Opcode) : CmdWord p := op.pattern p

/-- Format B (30_encoding R57). -/
def encodeB (p : Params) (op : Opcode) (b : BitVec 1) : CmdWord p := op.pattern p ||| placeField b p.lowAt

/-- Format I (30_encoding R58). -/
def encodeI (p : Params) (op : Opcode) (imm : Nat) : CmdWord p := op.pattern p ||| placeCount imm p.lowAt

/-- Format A (30_encoding R59). -/
def encodeA (p : Params) (op : Opcode) (nlvl : BitVec 1) (ph : BitVec 3) (per nd : Nat) : CmdWord p :=
  op.pattern p ||| placeField nlvl p.nlvlAt ||| placeField ph p.phAt ||| placeCount per p.perAt ||| placeCount nd p.lowAt

/-- The encoder, from the formats of 30_encoding R56 to R59 and the opcode map R63. -/
def encode (p : Params) : Instr → CmdWord p
  | .waitUs imm => encodeI p .waitUs imm
  | .waitMs imm => encodeI p .waitMs imm
  | .drive l => encodeB p .drive l.code
  | .setdir d => encodeB p .setdir d.code
  | .sample => encodeN p .sample
  | .reset => encodeN p .reset
  | .arm ph per nd nlvl => encodeA p .arm nlvl.code ph.code per nd
  | .poll => encodeN p .poll
  | .waitdone => encodeN p .waitdone
  | .tsetp imm => encodeI p .tsetp imm
  | .tstart => encodeN p .tstart
  | .tien => encodeN p .tien
  | .tclrp => encodeN p .tclrp
  | .tqp => encodeN p .tqp

end Sys2Proof
end

