-- ==== Sys2Proof/Machine/State.lean ====
section
/-! DEFINITION. The state of the block, the outcomes of a step that are no next state, and the state after
hardware reset (10_state R10 to R32). -/

namespace Sys2Proof.Machine

/-- The Line Driver cells (10_state R11, R12). -/
structure LineDriver where
  /-- `LD.dir` -/
  dir : Direction
  /-- `LD.dlatch` -/
  dlatch : Level
deriving DecidableEq, Repr

/-- The timer cells (10_state R14 to R19). -/
structure Timer where
  /-- `TMR.period`; `none` is the spec's own "unwritten" (10_state R14), not a missing reset value. -/
  period : Option Nat
  /-- `TMR.cnt` -/
  cnt : Nat
  /-- `TMR.uev_en` -/
  uevEn : Bool
  /-- `TMR.run` -/
  run : Bool
  /-- `TMR.ie` -/
  ie : Bool
  /-- `TMR.pend` -/
  pend : Bool
deriving DecidableEq, Repr

/-- The Delay Engine cell (10_state R20). -/
structure DelayEngine where
  /-- `DE.tick` -/
  tick : Bool
deriving DecidableEq, Repr

/-- The Transition Descriptor `TD` (10_state R21 to R25). -/
structure Descriptor where
  /-- `TD.phase` -/
  phase : Phase
  /-- `TD.next_delay_us` -/
  nextDelayUs : Nat
  /-- `TD.next_level` -/
  nextLevel : Level
deriving DecidableEq, Repr

/-- The five places of the block that perform `W0` and `W1` (40 R81, R85; 42 R110). -/
inductive WaitSite where
  /-- `WAIT_US` itself -/
  | waitUs
  /-- one repetition of `WAIT_MS` -/
  | waitMs
  /-- `B1` of `RESET` -/
  | resetLow
  /-- `B3` of `RESET` -/
  | settle
  /-- `B8` of `RESET` -/
  | remainder
deriving DecidableEq, Repr

/-- The labels of `fg.step` (10_state R26). `B1`, `B3`, `B8` and the wait inside `M1` are two labels each,
the `W0` and the `W1` of that wait. Commands of one micro-operation rest at no label. -/
inductive Label where
  | w0 (site : WaitSite)
  | w1 (site : WaitSite)
  | m0 | m1
  | b0 | b2 | b4 | b5 | b6 | b7 | b9
  | q0
deriving DecidableEq, Repr

/-- The foreground sequencer (10_state R26), and the two cells of the model's own that place it in time. -/
structure Foreground where
  /-- `fg.op`; `none` is `Idle` -/
  op : Option Opcode
  /-- `fg.step` -/
  step : Label
  /-- `fg.imm` -/
  imm : Nat
  /-- `fg.cnt` -/
  cnt : Nat
  /-- `fg.s` -/
  s : Level
  /-- `fg.sleeping` -/
  sleeping : Bool
  /-- MODEL's own: TICK steps left of a `STALL(k)` (00_scope R7; log entry 5). -/
  stall : Nat
  /-- MODEL's own: `Q0` has read a phase other than `Done` since the last TICK or IRQ step (log entry 6). -/
  yielded : Bool
deriving DecidableEq, Repr

/-- Who moves next, as plain data: an ENV step (00_scope R6, 70 R180), or the block itself (log entries 2, 3). -/
inductive Turn where
  /-- ENV: `EXT(b)` sets the external pull (00_scope R6). -/
  | ext (b : Bool)
  /-- ENV: `WAKE` (60 R165). -/
  | wake
  /-- ENV: `CMD(w)` presents the command word `w`, a number whose bits are the word's (00_scope R6). -/
  | cmd (w : Nat)
  /-- ENV: the hardware-reset step (70 R180). -/
  | rst
  /-- The block takes its own next step; a requested IRQ step goes first. -/
  | go
  /-- The block takes its own next step and puts a requested IRQ step off as long as `IRQ_LAT_US` allows (60 R155). -/
  | hold
deriving DecidableEq, Repr

/-- Everything the spec gives the block, then its inputs, then the model's own fields. INVENTORY.md lists each. -/
structure State where
  /-- Line Driver -/
  ld : LineDriver
  /-- timer -/
  tmr : Timer
  /-- Delay Engine -/
  de : DelayEngine
  /-- Transition Descriptor -/
  td : Descriptor
  /-- foreground sequencer -/
  fg : Foreground
  /-- `RESP` (10_state R27) -/
  resp : Resp
  /-- the ghost `now_us` (10_state R29) -/
  nowUs : Nat
  /-- INPUT `ext_low` (10_state R28): another device pulls the line low -/
  extLow : Bool
  /-- INPUT: the command word presented on the command port, if any, as the number of its `CMD_BITS` bits (92 D3) -/
  cmd : Option Nat
  /-- MODEL's own: the environment's script, the next turn first (log entry 2) -/
  turns : List Turn
  /-- MODEL's own: TICK steps passed since the interrupt request began (log entry 3) -/
  irqAge : Nat
  /-- MODEL's own: the parameters, never written (log entry 8) -/
  cfg : Params
deriving DecidableEq, Repr

/-- The block has no fault mechanism: no exception, no cause, no error code (60 R150, 00_scope R8), so no
step raises one. Nothing is lost by that: safe. -/
inductive Fault where
deriving DecidableEq, Repr

/-- `refuse(reason)` of 00_scope R8: the spec gives the command, or the state it was issued in, no meaning,
and a model must not go on. Every constructor is the spec's own refusal, hence safe. -/
inductive Refusal where
  /-- Raised by no arm of `exec` at present: an instruction without a meaning. Safe. -/
  | notModelled (mnemonic : String)
  /-- Raised when a word is accepted whose `OP` is none of the fourteen (30 R64, U1). Safe. -/
  | unknownOpcode
  /-- Raised when a word is accepted with a reserved bit set (30 R64, U2). Safe. -/
  | reservedBit
  /-- Raised by `ARM` with `ph` = 6 or 7 (43 R121, U3). Safe. -/
  | noSuchPhase
  /-- Raised by `ARM` with a reserved phase (43 R121, U4), and by the IRQ step that finds a phase outside
  `Reset`, `SingleStep`, `Done` (43 R127, U12). Safe. -/
  | reservedPhase
  /-- Raised by `ARM` with the operand combinations of 43 R121 (U5). Safe. -/
  | badArm
  /-- Raised by `WAIT_US`, `TSETP`, `ARM` and by any `REPROGRAM(0)` (40 R80, R84, U7). Safe. -/
  | zeroPeriod
  /-- Raised by `WAIT_US`, `WAIT_MS`, `RESET`, `TSETP` while the descriptor is active (40 R84, U8). Safe. -/
  | timerInUse
  /-- Raised by `ARM` while the descriptor is active (43 R121, U6). Safe. -/
  | sequenceActive
  /-- Raised by `RESET` with the pin in `input` (42 R113, U9). Safe. -/
  | resetNeedsOutput
  /-- Raised by `SAMPLE_OP` with the pin in `output` (41 R97, U10). Safe. -/
  | sampleWhileOutput
  /-- Raised by `TSTART`, and by a TICK step of a running timer, with the period unwritten (44 R141, 60 R152, U11). Safe. -/
  | periodUnwritten
deriving DecidableEq, Repr

/-- The state right after hardware reset (10_state R32). `fg.step`, `fg.imm`, `fg.cnt`, `fg.s` and `resp` have
no value in the spec: DESIGN CHOICE, unsafe (log entry 1). The inputs are quiet: DESIGN CHOICE (log entry 4).
`cfg` holds the spec's defaults (log entry 8). -/
def State.reset : State where
  ld := { dir := .input, dlatch := .high }
  tmr := { period := none, cnt := 0, uevEn := true, run := false, ie := false, pend := false }
  de := { tick := false }
  td := { phase := .done, nextDelayUs := 0, nextLevel := .high }
  fg :=
    { op := none, step := .w0 .waitUs, imm := 0, cnt := 0, s := .low, sleeping := false, stall := 0,
      yielded := false }
  resp := 0#3
  nowUs := 0
  extLow := false
  cmd := none
  turns := []
  irqAge := 0
  cfg := Config.defaults

end Sys2Proof.Machine
end

