-- ==== Sys2Proof/Machine/Flags.lean ====
section
/-! DEFINITION. The two flags of the block, `DE.tick` and `TMR.pend` (00_scope section 1), and every change of them. -/

namespace Sys2Proof.Machine

/-- `DE.tick <- 1` (10_state R20, 60 R157). -/
def setTick (s : State) : State := { s with de := { s.de with tick := true } }

/-- `DE.tick <- 0` (10_state R20, 40 R81). -/
def clearTick (s : State) : State := { s with de := { s.de with tick := false } }

/-- `TMR.pend <- 1` (10_state R19). -/
def setPend (s : State) : State := { s with tmr := { s.tmr with pend := true } }

/-- `TMR.pend <- 0` (10_state R19, 44 R143, 43 R120). -/
def clearPend (s : State) : State := { s with tmr := { s.tmr with pend := false } }

/-- EXPIRY, the update event: sets the pending flag unless update events are disabled; a pending flag already
set stays set, the two expiries are one (60 R153). -/
def expiry (s : State) : State := if s.tmr.uevEn then setPend s else s

/-- `irq`, the interrupt request: pending and enabled (60 R151, 92 D3). -/
def State.irq (s : State) : Bool := s.tmr.pend && s.tmr.ie

end Sys2Proof.Machine
end

