-- ==== Sys2Proof/Machine/Operands.lean ====
section
/-! DEFINITION. Results as `RESP` holds them (30_encoding R65) and the admission of each command's operands
in a state (40 R84, R85; 42 R113; 43 R121; 44 R140, R141). -/

namespace Sys2Proof.Machine

/-- One bit, zero-extended to `RESP` (30_encoding R65, 45 R146). -/
def respOfBit (b : BitVec 1) : Resp := 0#2 ++ b

/-- A level as `SAMPLE` returns it (30_encoding R65). -/
def respOfLevel (l : Level) : Resp := respOfBit l.code

/-- A flag as `TQP` returns it (30_encoding R65). -/
def respOfFlag (b : Bool) : Resp := respOfBit (BitVec.ofBool b)

/-- Presence polarity: present when the sampled level is `low`; presence = not level (42_blocking_reset R112). -/
def presence (l : Level) : Bool := decide (l = .low)

/-- The descriptor is active when its phase is not `Done` (10_state R25). -/
def Descriptor.active (td : Descriptor) : Bool := decide (td.phase ≠ .done)

/-- Run `k` if the command is admitted (`none`), else refuse; a refused command changes nothing (40 R84). -/
def guarded (a : Option Refusal) (k : Host.Outcome State Fault Refusal) : Host.Outcome State Fault Refusal :=
  match a with
  | some r => .refused r
  | none => k

/-- Admission of `WAIT_US` (40 R84). R84 gives no order of the two checks; that 0 is tested before the phase is
DESIGN CHOICE, log entry 16. -/
def admitWaitUs (imm : Nat) (s : State) : Option Refusal :=
  if imm = 0 then some .zeroPeriod else if s.td.active then some .timerInUse else none

/-- Admission of `WAIT_MS` (40 R85): `imm16` = 0 is admitted. -/
def admitWaitMs (s : State) : Option Refusal := if s.td.active then some .timerInUse else none

/-- Admission of `RESET` (42 R113). R113 gives no order of the two checks; that with an active descriptor and the pin
in `input` the reason is `timer_in_use` is DESIGN CHOICE, log entry 16. -/
def admitReset (s : State) : Option Refusal :=
  if s.td.active then some .timerInUse
  else if s.ld.dir ≠ .output then some .resetNeedsOutput
  else none

/-- The part of `ARM`'s admission that is about `ph`, in the order of 43 R121: no such phase, reserved phase, `Done`. -/
def admitArmPhase : Phase → Option Refusal
  | .reset => none
  | .writeZero => some .reservedPhase
  | .writeOne => some .reservedPhase
  | .read => some .reservedPhase
  | .singleStep => none
  | .done => some .badArm
  | .code6 => some .noSuchPhase
  | .code7 => some .noSuchPhase

/-- Admission of `ARM`, the checks in the order of 43 R121. -/
def admitArm (ph : Phase) (per nd : Nat) (nlvl : Level) (s : State) : Option Refusal :=
  if s.td.active then some .sequenceActive
  else
    match admitArmPhase ph with
    | some r => some r
    | none =>
      if per = 0 then some .zeroPeriod
      else if ph = .reset ∧ nd = 0 then some .badArm
      else if ph = .reset ∧ nlvl = .low then some .badArm
      else none

/-- Admission of `TSETP` (44 R140). R140 gives no order of the two checks; that 0 is tested before the phase is
DESIGN CHOICE, log entry 16. -/
def admitTsetp (imm : Nat) (s : State) : Option Refusal :=
  if imm = 0 then some .zeroPeriod else if s.td.active then some .timerInUse else none

/-- `TSTART` is refused while the period is unwritten (44 R141). -/
def admitTstart (s : State) : Option Refusal := if s.tmr.period = none then some .periodUnwritten else none

end Sys2Proof.Machine
end

