-- ==== Sys2Proof/Machine/Ops.lean ====
section
/-! DEFINITION. The named operations over the cells, the TICK step, and taking the timer interrupt. -/

namespace Sys2Proof.Machine

/-- Run `k` on the next state; a stop stays a stop. -/
def andThen (o : Host.Outcome State Fault Refusal) (k : State → Host.Outcome State Fault Refusal) :
    Host.Outcome State Fault Refusal :=
  match o with
  | .next s => k s
  | .fault f => .fault f
  | .refused r => .refused r

/-! ### Line Driver -/

/-- `pad_low`: the block is pulling the line low (10_state R13); the port `ow_pull_low` (92 D3). -/
def State.padLow (s : State) : Bool := decide (s.ld.dir = .output) && decide (s.ld.dlatch = .low)

/-- `bus()`: the level of the wired-AND line (10_state R13, 92 D20); the port `ow_in`. -/
def State.bus (s : State) : Level := if s.padLow || s.extLow then .low else .high

/-- `DRIVE_OP(l)` (41 R95): only the latch, in either direction. -/
def driveOp (l : Level) (s : State) : State := { s with ld := { s.ld with dlatch := l } }

/-- `SETDIR_OP(d)` (41 R96): only the direction; the latch keeps its level. -/
def setdirOp (d : Direction) (s : State) : State := { s with ld := { s.ld with dir := d } }

/-- `SAMPLE_OP()` (41 R97): the level of the line, valid only in `input`. -/
def sampleOp (s : State) : Except Refusal Level :=
  if s.ld.dir = .input then .ok s.bus else .error .sampleWhileOutput

/-! ### Timer -/

/-- The cells `REPROGRAM(p)` leaves: the new period, the counter at zero, update events enabled again; the
pending flag, `run` and `ie` as they were (40 R80). One atomic group, so `uev_en` = 0 inside it is seen by no step. -/
def Timer.withPeriod (t : Timer) (p : Nat) : Timer := { t with period := some p, cnt := 0, uevEn := true }

/-- `REPROGRAM(p)`, the spurious-free period rewrite (40 R80); `p` = 0 is refused. R80 and 10_state R14 bound `p` by
`PERIOD_MAX` and say nothing of a larger one, which only a duration fixed in the hardware can be, with a `TIMER_BITS`
too narrow for it; that the larger period is then stored and counted like any other is DESIGN CHOICE, unsafe
(log entry 17). `Params.literalsFit` rules the case out. -/
def reprogram (p : Nat) (s : State) : Host.Outcome State Fault Refusal :=
  if p = 0 then .refused .zeroPeriod else .next { s with tmr := s.tmr.withPeriod p }

/-- `TMR.run <- 1` (10_state R17). -/
def startTimer (s : State) : State := { s with tmr := { s.tmr with run := true } }

/-- `TMR.ie <- 1` (10_state R18). -/
def enableIrq (s : State) : State := { s with tmr := { s.tmr with ie := true } }

/-- `TMR.cnt <- c` (60 R152). -/
def setCnt (c : Nat) (s : State) : State := { s with tmr := { s.tmr with cnt := c } }

/-- The real time since reset in microseconds: `T_TICK` for each TICK step (00_scope R5, R7). -/
def State.elapsedUs (s : State) : Nat := s.nowUs * Config.tTickUs

/-- What a microsecond does besides the timer: the ghost clock (10_state R29), one microsecond off a `STALL`
(00_scope R7), the busy-poll may read again (43 R129), a waiting interrupt request grows older (60 R155). -/
def passMicrosecond (s : State) : State :=
  { s with
    nowUs := s.nowUs + 1
    irqAge := if s.irq then s.irqAge + 1 else 0
    fg := { s.fg with stall := s.fg.stall - 1, yielded := false } }

/-- The counting of a TICK step (60 R152), the sum taken without wrap-around (45 R146).
The count stays below the period, hence within `TIMER_BITS` bits. -/
def countTick (s : State) : Host.Outcome State Fault Refusal :=
  if s.tmr.run then
    match s.tmr.period with
    | none => .refused .periodUnwritten
    | some p =>
      if s.tmr.cnt + 1 ≥ p then .next (expiry (setCnt 0 s)) else .next (setCnt (s.tmr.cnt + 1) s)
  else .next s

/-- The TICK step: one microsecond of the time base (60 R152). -/
def tick (s : State) : Host.Outcome State Fault Refusal := countTick (passMicrosecond s)

/-! ### Foreground -/

/-- `fg.op <- op` with `fg.step` at the command's first label (10_state R26). -/
def beginCommand (op : Opcode) (l : Label) (s : State) : State :=
  { s with fg := { s.fg with op := some op, step := l } }

/-- `fg.imm` holds the command's immediate (10_state R26). -/
def setImm (imm : Nat) (s : State) : State := { s with fg := { s.fg with imm := imm } }

/-- `fg.step <- l` (00_scope R9). -/
def goto (l : Label) (s : State) : State := { s with fg := { s.fg with step := l } }

/-- `fg.op <- Idle`: the command ends (10_state R26). -/
def finish (s : State) : State := { s with fg := { s.fg with op := none } }

/-- `SLEEP` (60 R164). -/
def sleep (s : State) : State := { s with fg := { s.fg with sleeping := true } }

/-- The WAKE step, and the wake of an interrupt: `fg.sleeping <- 0` (60 R157, R165). -/
def wake (s : State) : State := { s with fg := { s.fg with sleeping := false } }

/-- `STALL(k)`: the foreground does nothing for `k` TICK steps (00_scope R7). -/
def stall (k : Nat) (s : State) : State := { s with fg := { s.fg with stall := k } }

/-- The busy-poll lets time pass (43 R129; log entry 6). -/
def yieldTurn (s : State) : State := { s with fg := { s.fg with yielded := true } }

/-- `fg.cnt <- c` (40 R85). -/
def setRepeat (c : Nat) (s : State) : State := { s with fg := { s.fg with cnt := c } }

/-- `fg.s <- l` (42 R110 B5). -/
def setSampled (l : Level) (s : State) : State := { s with fg := { s.fg with s := l } }

/-- `RESP <- v` (00_scope R9, 10_state R27). -/
def setResp (v : Resp) (s : State) : State := { s with resp := v }

/-- `respond(v)`: `RESP <- v` and the command ends (00_scope R9). -/
def respond (v : Resp) (s : State) : State := finish (setResp v s)

/-- The port `sleep` (92 D3). -/
def State.sleepPort (s : State) : Bool := s.fg.sleeping

/-! ### The Transition Descriptor -/

/-- `TD` written whole, by `ARM` or by the handler (10_state R25). -/
def setTd (td : Descriptor) (s : State) : State := { s with td := td }

/-- The side effects of one handler transition: `DRIVE_OP(level)`, then `REPROGRAM(period)` (43 R123, R125). -/
structure PhaseAction where
  level : Level
  period : Nat
deriving DecidableEq, Repr

/-- The phase action of `Reset` and of a multi-step `SingleStep`: drive `next_level`, start a period of
`next_delay_us`, consume the delay, be in `SingleStep` (43 R123, R125). -/
def Descriptor.act (td : Descriptor) : Descriptor × Option PhaseAction :=
  ({ td with phase := .singleStep, nextDelayUs := 0 }, some { level := td.nextLevel, period := td.nextDelayUs })

/-- `sm_step`, the handler's transition as a function of the descriptor alone (43 R122 to R127). -/
def smStep (td : Descriptor) : Except Refusal (Descriptor × Option PhaseAction) :=
  match td.phase with
  | .reset => .ok td.act
  | .singleStep => if td.nextDelayUs = 0 then .ok ({ td with phase := .done }, none) else .ok td.act
  | .done => .ok (td, none)
  | .writeZero => .error .reservedPhase
  | .writeOne => .error .reservedPhase
  | .read => .error .reservedPhase
  | .code6 => .error .reservedPhase
  | .code7 => .error .reservedPhase

/-! ### Taking the timer interrupt -/

/-- The common prologue of the handler, the same in every phase: the request is withdrawn, the elapsed-tick
flag set, the foreground woken (60 R157). Nothing is saved, nothing switched (60 R156). -/
def irqPrologue (s : State) : State := wake (setTick (clearPend s))

/-- The model's own bookkeeping at an IRQ step: the request is over, and a busy-poll reads again (43 R129). -/
def settleIrq (s : State) : State := { s with irqAge := 0, fg := { s.fg with yielded := false } }

/-- The return from the handler restores nothing, because nothing was saved (60 R158). -/
def returnFromInterrupt (s : State) : State := s

/-- The line and timer effects of a transition, applied (43 R122). -/
def applyAction (a : Option PhaseAction) (s : State) : Host.Outcome State Fault Refusal :=
  match a with
  | none => .next s
  | some act => reprogram act.period (driveOp act.level s)

/-- The IRQ step, the whole handler, atomic: prologue, `sm_step`, its effects, return (60 R157, R158). -/
def takeInterrupt (s : State) : Host.Outcome State Fault Refusal :=
  match smStep s.td with
  | .error r => .refused r
  | .ok (td, a) =>
    andThen (applyAction a (settleIrq (irqPrologue s))) fun t => .next (returnFromInterrupt (setTd td t))

end Sys2Proof.Machine
end

