-- ==== Sys2Proof/Machine/DelayEngine.lean ====
section
/-! DEFINITION. The Microsecond Delay Engine: `W0`, `W1`, `WAIT_US`, `WAIT_MS` (40_delay_engine). -/

namespace Sys2Proof.Machine

/-- The duration each wait is made with (40 R81, R85; 42 R110). -/
def waitDuration (site : WaitSite) (s : State) : Nat :=
  match site with
  | .waitUs => s.fg.imm
  | .waitMs => s.cfg.tMsUs
  | .resetLow => s.cfg.tResetLowUs
  | .settle => s.cfg.tSettleUs
  | .remainder => s.cfg.tRemainderUs

/-- What follows each wait: the end of `WAIT_US`, the next repetition of `WAIT_MS`, the next step of `RESET`. -/
def waitExit (site : WaitSite) (s : State) : State :=
  match site with
  | .waitUs => finish s
  | .waitMs => goto .m1 s
  | .resetLow => goto .b2 s
  | .settle => goto .b4 s
  | .remainder => goto .b9 s

/-- `W0`: clear the flag and reprogram, one atomic group (40 R81, R87; 92 D7). `TMR.pend` is not touched (92 D35). -/
def waitStart (site : WaitSite) (s : State) : Host.Outcome State Fault Refusal :=
  andThen (reprogram (waitDuration site s) (clearTick s)) fun t => .next (goto (.w1 site) t)

/-- `W1`: a fresh read of the flag; return, or sleep and check again after the wake. Check and sleep are one
micro-operation (40 R81, R82; 92 D22). `DE.tick` stays 1 on return. -/
def waitCheck (site : WaitSite) (s : State) : State :=
  if s.de.tick then waitExit site s else goto (.w1 site) (sleep s)

/-- `M0` (40 R85). -/
def microM0 (s : State) : State := goto .m1 (setRepeat s.fg.imm s)

/-- `M1`: end when no repetition is left, else count one down and perform a wait of `T_MS_US` (40 R85, 45 R146). -/
def microM1 (s : State) : State :=
  if s.fg.cnt = 0 then finish s else goto (.w0 .waitMs) (setRepeat (s.fg.cnt - 1) s)

/-- `WAIT_US` (40 R81): admission, then `W0` in the step that accepts it (log entry 10). -/
def execWaitUs (imm : Nat) (s : State) : Host.Outcome State Fault Refusal :=
  guarded (admitWaitUs imm s) (waitStart .waitUs (setImm imm (beginCommand .waitUs (.w0 .waitUs) s)))

/-- `WAIT_MS` (40 R85): admission, then `M0` in the step that accepts it (log entry 10). -/
def execWaitMs (imm : Nat) (s : State) : Host.Outcome State Fault Refusal :=
  guarded (admitWaitMs s) (.next (microM0 (setImm imm (beginCommand .waitMs .m0 s))))

end Sys2Proof.Machine
end

