-- ==== Sys2Proof/Machine/BlockingReset.lean ====
section
/-! DEFINITION. The Blocking Reset Sequencer: `RESET`, `B0` to `B9` (42_blocking_reset). The waits `B1`, `B3`,
`B8` are the Delay Engine's `W0` and `W1` at their sites. -/

namespace Sys2Proof.Machine

/-- `B0`: drive low, then the wait of `T_RESET_LOW_US` (42 R110). -/
def microB0 (s : State) : State := goto (.w0 .resetLow) (driveOp .low s)

/-- `B2`: release, then the wait of `T_SETTLE_US` (42 R110). -/
def microB2 (s : State) : State := goto (.w0 .settle) (driveOp .high s)

/-- `B4`: switch to input (42 R110). -/
def microB4 (s : State) : State := goto .b5 (setdirOp .input s)

/-- `B5`: sample once (42 R110, R115). -/
def microB5 (s : State) : Host.Outcome State Fault Refusal :=
  match sampleOp s with
  | .error r => .refused r
  | .ok l => .next (goto .b6 (setSampled l s))

/-- `B6`: the cost of the sample passes (42 R110, 92 D14). -/
def microB6 (s : State) : State := goto .b7 (stall s.cfg.tSampleUs s)

/-- `B7`: back to output, then the wait of `T_REMAINDER_US` (42 R110). -/
def microB7 (s : State) : State := goto (.w0 .remainder) (setdirOp .output s)

/-- `B9`: the presence bit, and the end (42 R110, R112). -/
def microB9 (s : State) : State := respond (respOfFlag (presence s.fg.s)) s

/-- `RESET` (42 R110, R113): admission, then `B0` in the step that accepts it (log entry 10). -/
def execReset (s : State) : Host.Outcome State Fault Refusal :=
  guarded (admitReset s) (.next (microB0 (beginCommand .reset .b0 s)))

end Sys2Proof.Machine
end

