-- ==== Sys2Proof/Machine/IrqMachine.lean ====
section
/-! DEFINITION. The commands of the Interrupt-Driven Reset State Machine: `ARM`, `POLL`, `WAITDONE`
(43_irq_state_machine). The handler's transition is `smStep` of Machine/Ops.lean. -/

namespace Sys2Proof.Machine

/-- `A0`, one atomic group: the descriptor, no stale pending flag, the first period, interrupt and timer on
(43 R120). -/
def microA0 (ph : Phase) (per nd : Nat) (nlvl : Level) (s : State) : Host.Outcome State Fault Refusal :=
  andThen (reprogram per (clearPend (setTd { phase := ph, nextDelayUs := nd, nextLevel := nlvl } s)))
    fun t => .next (finish (startTimer (enableIrq t)))

/-- `ARM` (43 R120, R121). -/
def execArm (ph : Phase) (per nd : Nat) (nlvl : Level) (s : State) : Host.Outcome State Fault Refusal :=
  guarded (admitArm ph per nd nlvl s) (microA0 ph per nd nlvl s)

/-- `POLL`: one fresh read of the phase (43 R128). -/
def execPoll (s : State) : Host.Outcome State Fault Refusal := .next (respond s.td.phase.code s)

/-- `Q0`: a fresh read of the phase; end at `Done`, else read again later, awake (43 R129). -/
def microQ0 (s : State) : State := if s.td.phase = .done then finish s else goto .q0 (yieldTurn s)

/-- `WAITDONE` (43 R129): `Q0` in the step that accepts it (log entry 10). -/
def execWaitdone (s : State) : Host.Outcome State Fault Refusal := .next (microQ0 (beginCommand .waitdone .q0 s))

end Sys2Proof.Machine
end

