-- ==== Sys2Proof/Machine/LineDriver.lean ====
section
/-! DEFINITION. The Line Driver's commands: `DRIVE`, `SETDIR`, `SAMPLE` (41_line_driver). -/

namespace Sys2Proof.Machine

/-- `DRIVE` (41 R95). -/
def execDrive (l : Level) (s : State) : Host.Outcome State Fault Refusal := .next (finish (driveOp l s))

/-- `SETDIR` (41 R96). -/
def execSetdir (d : Direction) (s : State) : Host.Outcome State Fault Refusal := .next (finish (setdirOp d s))

/-- `SAMPLE` (41 R97): refused while the pin is in `output`. -/
def execSample (s : State) : Host.Outcome State Fault Refusal :=
  match sampleOp s with
  | .error r => .refused r
  | .ok l => .next (respond (respOfLevel l) s)

end Sys2Proof.Machine
end

