-- ==== Sys2Proof/Machine/TimerPort.lean ====
section
/-! DEFINITION. The timer port's commands: `TSETP`, `TSTART`, `TIEN`, `TCLRP`, `TQP` (44_timer_port). -/

namespace Sys2Proof.Machine

/-- `TSETP` (44 R140). -/
def execTsetp (imm : Nat) (s : State) : Host.Outcome State Fault Refusal :=
  guarded (admitTsetp imm s) (andThen (reprogram imm (setImm imm s)) fun t => .next (finish t))

/-- `TSTART` (44 R141). -/
def execTstart (s : State) : Host.Outcome State Fault Refusal :=
  guarded (admitTstart s) (.next (finish (startTimer s)))

/-- `TIEN` (44 R142). -/
def execTien (s : State) : Host.Outcome State Fault Refusal := .next (finish (enableIrq s))

/-- `TCLRP` (44 R143). -/
def execTclrp (s : State) : Host.Outcome State Fault Refusal := .next (finish (clearPend s))

/-- `TQP` (44 R144): the flag is read, not cleared. -/
def execTqp (s : State) : Host.Outcome State Fault Refusal := .next (respond (respOfFlag s.tmr.pend) s)

end Sys2Proof.Machine
end

