-- ==== Sys2Proof/Machine/Dispatch.lean ====
section
/-! DEFINITION. One arm a command: the meaning of accepting it. -/

namespace Sys2Proof.Machine

def exec (i : Instr) (s : State) : Host.Outcome State Fault Refusal :=
  match i with
  | .waitUs imm => Sys2Proof.Machine.execWaitUs imm s
  | .waitMs imm => Sys2Proof.Machine.execWaitMs imm s
  | .drive l => Sys2Proof.Machine.execDrive l s
  | .setdir d => Sys2Proof.Machine.execSetdir d s
  | .sample => Sys2Proof.Machine.execSample s
  | .reset => Sys2Proof.Machine.execReset s
  | .arm ph per nd nlvl => Sys2Proof.Machine.execArm ph per nd nlvl s
  | .poll => Sys2Proof.Machine.execPoll s
  | .waitdone => Sys2Proof.Machine.execWaitdone s
  | .tsetp imm => Sys2Proof.Machine.execTsetp imm s
  | .tstart => Sys2Proof.Machine.execTstart s
  | .tien => Sys2Proof.Machine.execTien s
  | .tclrp => Sys2Proof.Machine.execTclrp s
  | .tqp => Sys2Proof.Machine.execTqp s

end Sys2Proof.Machine
end

