-- ==== Sys2Proof/Machine/Schedule.lean ====
section
/-! DEFINITION. Who takes the next step: the foreground's micro-operations, the accepting of a command, the
order of steps inside a microsecond, and the environment's steps (00_scope R6, R7). -/

namespace Sys2Proof.Machine

/-- One micro-operation of the command in execution: the one `fg.step` names (10_state R26). -/
def microStep (s : State) : Host.Outcome State Fault Refusal :=
  match s.fg.step with
  | .w0 site => waitStart site s
  | .w1 site => .next (waitCheck site s)
  | .m0 => .next (microM0 s)
  | .m1 => .next (microM1 s)
  | .b0 => .next (microB0 s)
  | .b2 => .next (microB2 s)
  | .b4 => .next (microB4 s)
  | .b5 => microB5 s
  | .b6 => .next (microB6 s)
  | .b7 => .next (microB7 s)
  | .b9 => .next (microB9 s)
  | .q0 => .next (microQ0 s)

/-- The reason a word that is no command is refused with (30_encoding R64). -/
def refusalOf : DecodeError → Refusal
  | .unknownOpcode => .unknownOpcode
  | .reservedBit => .reservedBit

/-- The presented word leaves the port when it is accepted (92 D3). -/
def takeCmd (s : State) : State := { s with cmd := none }

/-- Accept the word `w` (its low `CMD_BITS` bits): decode it, take it from the port, execute it (10_state R26, 30_encoding R64). -/
def acceptWord (w : Nat) (s : State) : Host.Outcome State Fault Refusal :=
  match decode s.cfg (BitVec.ofNat _ w) with
  | .error e => .refused (refusalOf e)
  | .ok i => exec i (takeCmd s)

/-- What the foreground can do now. -/
inductive FgTurn where
  /-- nothing: asleep, stalled, idle with no word presented, or a busy-poll that has read this microsecond -/
  | blocked
  /-- accept the presented word -/
  | accept (w : Nat)
  /-- the next micro-operation of the command in execution -/
  | micro
deriving DecidableEq, Repr

/-- The foreground's next enabled action (10_state R26, 60 R164, 00_scope R7). A command is accepted only when
`fg.op` = `Idle`. -/
def fgTurn (s : State) : FgTurn :=
  if s.fg.sleeping || decide (s.fg.stall ≠ 0) then .blocked
  else
    match s.fg.op with
    | none =>
      match s.cmd with
      | none => .blocked
      | some w => .accept w
    | some _ => if s.fg.yielded then .blocked else .micro

/-- The port `cmd_ready`: the presented word is taken now, and is not one the block refuses (92 D3, D16). -/
def State.cmdReady (s : State) : Bool :=
  match fgTurn s with
  | .blocked => false
  | .micro => false
  | .accept w =>
    match acceptWord w s with
    | .next _ => true
    | .fault _ => false
    | .refused _ => false

/-- Is a requested IRQ step due: have `IRQ_LAT_US` TICK steps passed since the request? Then nothing of the block
goes before it, neither a foreground action nor a TICK step (00_scope R7, 60 R155). With `IRQ_LAT_US` = 0 it is due
from the first moment. Before it is due it may come at any point between two micro-operations (10_state R26,
60 R156), or be put off (log entry 3). -/
def State.irqDue (s : State) : Bool := decide (s.cfg.irqLatUs ≤ s.irqAge)

/-- The foreground's action if it has one, else a microsecond passes (00_scope R7, maximal progress). -/
def fgOrTick (s : State) : Host.Outcome State Fault Refusal :=
  match fgTurn s with
  | .blocked => tick s
  | .accept w => acceptWord w s
  | .micro => microStep s

/-- The block's own step: the IRQ step if it is requested and due, or requested and not put off; else the foreground;
else TICK (00_scope R7, 60 R155, R160). -/
def ownStep (hold : Bool) (s : State) : Host.Outcome State Fault Refusal :=
  if s.irq && (s.irqDue || !hold) then takeInterrupt s else fgOrTick s

/-- The hardware-reset step: every cell of the block at its reset value, whatever was in progress; the inputs
and the model's parameters are not the block's to change (70 R180; log entry 12). -/
def hardwareReset (s : State) : State :=
  { State.reset with extLow := s.extLow, cmd := s.cmd, turns := s.turns, cfg := s.cfg }

/-- `EXT(b)` (00_scope R6). -/
def setExt (b : Bool) (s : State) : State := { s with extLow := b }

/-- The word the `CMD_BITS` lines of the command port carry (92 D3). -/
def portWord (p : Params) (w : Nat) : Nat := w % 2 ^ p.cmdBits

/-- `CMD(w)` (00_scope R6). -/
def presentCmd (w : Nat) (s : State) : State := { s with cmd := some (portWord s.cfg w) }

/-- The rest of the script. -/
def setTurns (ts : List Turn) (s : State) : State := { s with turns := ts }

/-- One turn: an ENV step, or the block's own step. -/
def takeTurn (t : Turn) (s : State) : Host.Outcome State Fault Refusal :=
  match t with
  | .ext b => .next (setExt b s)
  | .wake => .next (wake s)
  | .cmd w => .next (presentCmd w s)
  | .rst => .next (hardwareReset s)
  | .go => ownStep false s
  | .hold => ownStep true s

/-- One step of the machine: the script's next turn, and the block's own step when the script is at its end. -/
def machineStep (s : State) : Host.Outcome State Fault Refusal :=
  match s.turns with
  | [] => takeTurn .go s
  | t :: ts => takeTurn t (setTurns ts s)

/-- `s` made ready to accept the word `w` at its very next step: the word presented, the script at its end, no
request pending, the foreground idle and awake (log entry 13). -/
def readyFor (w : Nat) (s : State) : State :=
  { s with
    cmd := some (portWord s.cfg w)
    turns := []
    tmr := { s.tmr with pend := false }
    fg := { s.fg with op := none, sleeping := false, stall := 0 } }

end Sys2Proof.Machine
end

