-- ==== Sys2Proof/Machine/Step.lean ====
section
/-! DEFINITION. The step of the machine, and placing a command where the next step accepts it. -/

namespace Sys2Proof.Machine

/-- One step (00_scope R6, R7). -/
def step (s : State) : Host.Outcome State Fault Refusal := machineStep s

/-- `s` with the word of the low `nbits` bits of `w` presented so that the very next step accepts it. A command
is one whole word of `CMD_BITS` bits, 48 after reset; bits above `nbits` are 0. -/
def State.withFetchWord (s : State) (nbits w : Nat) : State := readyFor (w % 2 ^ nbits) s

end Sys2Proof.Machine
end

