-- ==== Sys2Proof/Machine/Pseudo.lean ====
section
/-! DEFINITION. The two pseudo-commands a toolchain expands, and what the host does between them
(30_encoding R68, 43_irq_state_machine R130). They are the host's, outside the block. -/

namespace Sys2Proof.Machine

/-- What a host that issues commands does (30_encoding R68). -/
inductive HostAct where
  /-- presents one command -/
  | issue (i : Instr)
  /-- presents `poll()` again and again while `RESP` holds the code of `p` -/
  | pollWhile (p : Phase)
  /-- lets that many microseconds pass -/
  | letPass (us : Nat)
deriving DecidableEq, Repr

/-- `init()` (30_encoding R68, 70 R181); its period is the literal 1000 of R68. -/
def initSequence : List HostAct :=
  [.issue (.setdir .output), .issue (.tsetp 1000), .issue .tien, .issue .tstart]

/-- `reset_irq()` (30_encoding R68, 43 R130), with the parameters of `cfg`. -/
def resetIrqSequence (cfg : Params) : List HostAct :=
  [.issue (.drive .low), .issue (.arm .reset cfg.tResetLowUs cfg.tIrqPostReleaseUs .high),
    .pollWhile .reset, .letPass cfg.irqSampleOffsetUs, .issue (.setdir .input), .issue .sample,
    .letPass cfg.tSampleUs, .issue (.setdir .output), .issue .waitdone]

/-- The presence the host forms from the `RESP` of its `sample()` (43 R130, 42 R112). -/
def hostPresence (r : Resp) : Bool := decide (r = respOfLevel .low)

end Sys2Proof.Machine
end

