-- ==== Sys2Proof/Machine/Text.lean ====
section
/-! DEFINITION. The textual form of a command, written and read (30_encoding R67). Text is a list of characters. -/

namespace Sys2Proof

/-- The characters of a name. -/
def chars (name : String) : List Char := name.toList

/-- The decimal digit of a number below 10. -/
def digitChar (n : Nat) : Char := Char.ofNat (48 + n)

/-- The value of a decimal digit. -/
def digitValue (c : Char) : Option Nat := if 48 ≤ c.toNat ∧ c.toNat ≤ 57 then some (c.toNat - 48) else none

/-- The decimal digits of `n`, at most `fuel` of them; `fuel` above `n` is enough. -/
def decDigits : Nat → Nat → List Char
  | 0, _ => []
  | fuel + 1, n => if n < 10 then [digitChar n] else decDigits fuel (n / 10) ++ [digitChar (n % 10)]

/-- A count as a decimal number (30_encoding R67). -/
def usText (u : Nat) : List Char := decDigits (u + 1) u

/-- Digits read left to right onto `acc`. -/
def readDigits : Nat → List Char → Option Nat
  | acc, [] => some acc
  | acc, c :: cs =>
    match digitValue c with
    | none => none
    | some d => readDigits (acc * 10 + d) cs

/-- A decimal number that a count field can hold (30_encoding R58, R67). -/
def readUs (p : Params) (cs : List Char) : Option Nat :=
  if cs = [] then none
  else
    match readDigits 0 cs with
    | none => none
    | some n => if p.fits n then some n else none

/-- Level names (30_encoding R60, R67). -/
def levelText : Level → List Char
  | .low => chars "low"
  | .high => chars "high"

/-- Level names read. -/
def readLevel (cs : List Char) : Option Level :=
  if cs = chars "low" then some .low else if cs = chars "high" then some .high else none

/-- Direction names (30_encoding R61, R67). -/
def directionText : Direction → List Char
  | .input => chars "input"
  | .output => chars "output"

/-- Direction names read. -/
def readDirection (cs : List Char) : Option Direction :=
  if cs = chars "input" then some .input else if cs = chars "output" then some .output else none

/-- Phase names (30_encoding R62, R67); codes 6 and 7 have none. -/
def phaseText : Phase → Option (List Char)
  | .reset => some (chars "Reset")
  | .writeZero => some (chars "WriteZero")
  | .writeOne => some (chars "WriteOne")
  | .read => some (chars "Read")
  | .singleStep => some (chars "SingleStep")
  | .done => some (chars "Done")
  | .code6 => none
  | .code7 => none

/-- Phase names read. -/
def readPhase (cs : List Char) : Option Phase :=
  if cs = chars "Reset" then some .reset else if cs = chars "WriteZero" then some .writeZero
  else if cs = chars "WriteOne" then some .writeOne else if cs = chars "Read" then some .read
  else if cs = chars "SingleStep" then some .singleStep else if cs = chars "Done" then some .done
  else none

/-- A function call of the source's spelling: the name, then the operands between commas (30_encoding R67). -/
def callText (name : String) (args : List (List Char)) : List Char :=
  chars name ++ ['('] ++ (chars ", ").intercalate args ++ [')']

/-- The textual form of a command (30_encoding R67); none for `ARM` with a phase code that has no name. -/
def Instr.text : Instr → Option (List Char)
  | .waitUs imm => some (callText "wait" [usText imm])
  | .waitMs imm => some (callText "wait_ms" [usText imm])
  | .drive l => some (callText "drive" [levelText l])
  | .setdir d => some (callText "set_direction" [directionText d])
  | .sample => some (callText "sample" [])
  | .reset => some (callText "reset" [])
  | .arm ph per nd nlvl =>
    (phaseText ph).map fun p => callText "arm" [p, usText per, usText nd, levelText nlvl]
  | .poll => some (callText "poll" [])
  | .waitdone => some (callText "wait_done" [])
  | .tsetp imm => some (callText "set_period" [usText imm])
  | .tstart => some (callText "start" [])
  | .tien => some (callText "enable_interrupt" [])
  | .tclrp => some (callText "clear_pending_interrupt_flag" [])
  | .tqp => some (callText "interrupt_pending" [])

/-- The line up to its comment, without spaces (30_encoding R67; that spaces mean nothing is log entry 15). -/
def stripLine (cs : List Char) : List Char := (cs.takeWhile fun c => c ≠ ';').filter fun c => c ≠ ' '

/-- Cut at every comma. -/
def splitCommas : List Char → List (List Char)
  | [] => [[]]
  | c :: cs =>
    match splitCommas cs with
    | [] => [[c]]
    | a :: as => if c = ',' then [] :: a :: as else (c :: a) :: as

/-- The operands of a call, from the text after its opening parenthesis: it must end in the closing one. -/
def readArgs (cs : List Char) : Option (List (List Char)) :=
  if cs.getLast? = some ')' then
    if cs.dropLast = [] then some [] else some (splitCommas cs.dropLast)
  else none

/-- A command without operands. -/
def readNoArg (i : Instr) (args : List (List Char)) : Option Instr := if args = [] then some i else none

/-- A command with one operand. -/
def readOneArg {α : Type} (read : List Char → Option α) (mk : α → Instr) (args : List (List Char)) : Option Instr :=
  match args with
  | [a] => (read a).map mk
  | _ => none

/-- The operands of `arm`, in the order `arm(phase, period_us, next_delay_us, next_level)` (30_encoding R67). -/
def readArm (p : Params) (args : List (List Char)) : Option Instr :=
  match args with
  | [ph, per, nd, l] =>
    match readPhase ph, readUs p per, readUs p nd, readLevel l with
    | some ph, some per, some nd, some l => some (.arm ph per nd l)
    | _, _, _, _ => none
  | _ => none

/-- The command a name and its operands stand for (30_encoding R67). -/
def readCall (p : Params) (name : List Char) (args : List (List Char)) : Option Instr :=
  if name = chars "wait" then readOneArg (readUs p) .waitUs args
  else if name = chars "wait_ms" then readOneArg (readUs p) .waitMs args
  else if name = chars "drive" then readOneArg readLevel .drive args
  else if name = chars "set_direction" then readOneArg readDirection .setdir args
  else if name = chars "sample" then readNoArg .sample args
  else if name = chars "reset" then readNoArg .reset args
  else if name = chars "arm" then readArm p args
  else if name = chars "poll" then readNoArg .poll args
  else if name = chars "wait_done" then readNoArg .waitdone args
  else if name = chars "set_period" then readOneArg (readUs p) .tsetp args
  else if name = chars "start" then readNoArg .tstart args
  else if name = chars "enable_interrupt" then readNoArg .tien args
  else if name = chars "clear_pending_interrupt_flag" then readNoArg .tclrp args
  else if name = chars "interrupt_pending" then readNoArg .tqp args
  else none

/-- A line read as a command (30_encoding R67). -/
def readCommand (p : Params) (line : List Char) : Option Instr :=
  let cs := stripLine line
  match cs.dropWhile fun c => c ≠ '(' with
  | [] => none
  | _ :: rest =>
    match readArgs rest with
    | none => none
    | some args => readCall p (cs.takeWhile fun c => c ≠ '(') args

/-- The words of a text, one command a line; a line with nothing but a comment gives none (30_encoding R67). -/
def assemble (p : Params) : List (List Char) → Option (List (CmdWord p))
  | [] => some []
  | line :: lines =>
    match assemble p lines with
    | none => none
    | some words =>
      if stripLine line = [] then some words
      else
        match readCommand p line with
        | none => none
        | some i => some (encode p i :: words)

end Sys2Proof
end

