-- ==== Sys2Proof/Safety.lean ====
section
/-! DEFINITION. What the reachable states of the block have in common, and the runs claims speak of. -/

namespace Sys2Proof.Machine

/-- The timer: update events enabled outside `REPROGRAM` (10_state R16); running only with its period written
(10_state R14); the counter below the period, hence the period never 0 (10_state R15). -/
abbrev TimerInv (s : State) : Prop :=
  s.tmr.uevEn = true ∧ (s.tmr.run = true → s.tmr.period ≠ none) ∧
    (∀ p ∈ s.tmr.period, s.tmr.cnt < p)

/-- The three phases the block enters (10_state R22, 43 R127). -/
def phaseEntered (p : Phase) : Bool := decide (p = .reset) || decide (p = .singleStep) || decide (p = .done)

/-- The descriptor: one of the three phases; `Reset` only with a delay to come and the level `high` (43 R121);
active only with the timer running and its interrupt enabled (43 R129). -/
abbrev DescriptorInv (s : State) : Prop :=
  phaseEntered s.td.phase = true ∧
    (s.td.phase = .reset → s.td.nextDelayUs ≠ 0 ∧ s.td.nextLevel = .high) ∧
    (s.td.active = true → s.tmr.run = true ∧ s.tmr.ie = true)

/-- The label is one of the command's own (10_state R26). -/
def labelOf : Option Opcode → Label → Bool
  | none, _ => true
  | some .waitUs, l => [Label.w0 .waitUs, .w1 .waitUs].contains l
  | some .waitMs, l => [Label.m0, .m1, .w0 .waitMs, .w1 .waitMs].contains l
  | some .reset, l =>
    [Label.b0, .w0 .resetLow, .w1 .resetLow, .b2, .w0 .settle, .w1 .settle, .b4, .b5, .b6, .b7,
      .w0 .remainder, .w1 .remainder, .b9].contains l
  | some .waitdone, l => decide (l = .q0)
  | some _, _ => false

/-- The commands that own the timer while they run (70 R184). -/
def usesTimer (op : Option Opcode) : Bool :=
  decide (op = some .waitUs) || decide (op = some .waitMs) || decide (op = some .reset)

/-- The place of a label is a `W1`, the only suspension point (60 R164). -/
def Label.suspends : Label → Bool
  | .w1 _ => true
  | _ => false

/-- The foreground: its position is in its command; a command that owns the timer runs beside no active
descriptor (70 R184); `WAIT_US` never waits for 0; the pin is `input` exactly between `B4` and `B7` of `RESET`
(42 R110); asleep only at a `W1` (60 R164), stalled only before `B7`, yielding only in `WAITDONE` (43 R129). -/
abbrev ForegroundInv (s : State) : Prop :=
  labelOf s.fg.op s.fg.step = true ∧
    (usesTimer s.fg.op = true → s.td.phase = .done) ∧
    (s.fg.op = some .waitUs → s.fg.imm ≠ 0) ∧
    (s.fg.op = some .reset → (s.ld.dir = .input ↔ [Label.b5, .b6, .b7].contains s.fg.step = true)) ∧
    (s.fg.sleeping = true → s.fg.op ≠ none ∧ Label.suspends s.fg.step = true) ∧
    (s.fg.stall ≠ 0 → s.fg.op = some .reset ∧ s.fg.step = .b7) ∧
    (s.fg.yielded = true → s.fg.op = some .waitdone)

/-- A waiting interrupt request is never older than `IRQ_LAT_US` (60 R155). -/
abbrev LatencyInv (s : State) : Prop := s.irqAge ≤ s.cfg.irqLatUs

/-- Every count is within `TIMER_BITS` bits (10_state R14, R15, R23, R26; 92 D2), the presented word within
`CMD_BITS`, and the durations fixed in the hardware are legal periods of that width. -/
abbrev WidthInv (s : State) : Prop :=
  s.cfg.literalsFit = true ∧
    (∀ p ∈ s.tmr.period, s.cfg.fits p = true) ∧ s.cfg.fits s.tmr.cnt = true ∧ s.cfg.fits s.td.nextDelayUs = true ∧
    s.cfg.fits s.fg.imm = true ∧ s.cfg.fits s.fg.cnt = true ∧ (∀ w ∈ s.cmd, w < 2 ^ s.cfg.cmdBits)

/-- The invariant of the block. -/
abbrev BlockInv (s : State) : Prop := TimerInv s ∧ DescriptorInv s ∧ ForegroundInv s ∧ LatencyInv s ∧ WidthInv s

/-- The turn the next step takes. -/
def State.turn (s : State) : Turn := s.turns.headD .go

/-- The state the next step's turn is taken in: the script moved on. -/
def State.onTurn (s : State) : State := setTurns s.turns.tail s

/-- No hardware reset is in the script. -/
def State.noRst (s : State) : Bool := decide (Turn.rst ∉ s.turns)

/-- No command is presented, and the script presents none. -/
def State.noCmd (s : State) : Bool := decide (s.cmd = none) && s.turns.all fun t =>
  match t with
  | .cmd _ => false
  | .ext _ => true
  | .wake => true
  | .rst => true
  | .go => true
  | .hold => true

/-- `n` steps of the machine, stopping at the first refusal. -/
def steps : Nat → State → Host.Outcome State Fault Refusal
  | 0, s => .next s
  | n + 1, s => andThen (step s) (steps n)

/-- The cells of the foreground the spec names, but for `fg.sleeping`, are the same (60 R156). -/
abbrev sameSequencer (s t : State) : Prop :=
  t.fg.op = s.fg.op ∧ t.fg.step = s.fg.step ∧ t.fg.imm = s.fg.imm ∧ t.fg.cnt = s.fg.cnt ∧ t.fg.s = s.fg.s

/-- The block's own step comes next, and no interrupt is requested: the foreground or a microsecond moves. -/
abbrev quiet (s : State) : Prop := s.turns = [] ∧ s.irq = false

/-- The foreground can accept a command now, were one presented (10_state R26). -/
abbrev idle (s : State) : Prop :=
  s.fg.op = none ∧ s.fg.sleeping = false ∧ s.fg.stall = 0 ∧ s.fg.yielded = false

/-- `n` TICK steps and nothing else. -/
def ticks : Nat → State → Host.Outcome State Fault Refusal
  | 0, s => .next s
  | n + 1, s => andThen (tick s) (ticks n)

end Sys2Proof.Machine
end

