-- ==== Sys2Proof/Certificates/Slice0/Obligations.lean ====
section
/-! DEFINITION. The statements for the provers. -/

open Sys2Proof Sys2Proof.Machine

/-! ### Encoding -/

/-- Words of the textual table of 30_encoding R67 and of the vectors of 95 TV9, one or more a family, with
`TIMER_BITS` = 16. -/
def Obligations.TableWordsDecode : Prop :=
  decode Config.defaults 0x1000000001E0#48 = .ok (.waitUs 480) ∧
    decode Config.defaults 0x110000000002#48 = .ok (.waitMs 2) ∧
    decode Config.defaults 0x200000000001#48 = .ok (.drive .high) ∧
    decode Config.defaults 0x210000000001#48 = .ok (.setdir .output) ∧
    decode Config.defaults 0x300000000000#48 = .ok .reset ∧
    decode Config.defaults 0x401001E00078#48 = .ok (.arm .reset 480 120 .high) ∧
    decode Config.defaults 0x401400780000#48 = .ok (.arm .singleStep 120 0 .high) ∧
    decode Config.defaults 0x5000000003E8#48 = .ok (.tsetp 1000) ∧
    decode Config.defaults 0x540000000000#48 = .ok .tqp ∧
    decode Config.defaults 0x000000000000#48 = .error .unknownOpcode ∧
    decode Config.defaults 0xFFFFFFFFFFFF#48 = .error .unknownOpcode ∧
    decode Config.defaults 0x300000000001#48 = .error .reservedBit ∧
    decode Config.defaults 0x401801E00078#48 = .error .reservedBit

/-- 30_encoding R55 to R63: for every `TIMER_BITS`, decoding what the encoder writes gives the command back, every
operand at every value its field holds, the ill-formed commands too. How the word of another `TIMER_BITS` than 16 is
laid out is DEDUCED from R58, log entry 9. -/
def Obligations.DecodeOfEncode : Prop := 
  ∀ (p : Params) (i : Instr), i.fits p = true → decode p (encode p i) = .ok i

/-- 30_encoding R55 to R64: for every `TIMER_BITS`, a word that decodes is the encoding of what it
decodes to, so no bit of it is dropped, and its counts fit. The layout for another `TIMER_BITS` than 16 is log entry 9. -/
def Obligations.EncodeOfDecode : Prop := 
  ∀ (p : Params) (w : CmdWord p) (i : Instr), decode p w = .ok i → encode p i = w ∧ i.fits p = true

/-- 30_encoding R63: no word matches two rows of the opcode map, for every `TIMER_BITS` (layout: log entry 9). -/
def Obligations.RowsDisjoint : Prop :=
  ∀ (p : Params) (w : CmdWord p) (a b : Opcode),
    w &&& a.mask p = a.pattern p → w &&& b.mask p = b.pattern p → a = b

/-- 30_encoding R67: the textual form of a command whose counts fit reads back as that command. -/
def Obligations.TextReadsBack : Prop :=
  ∀ (p : Params) (i : Instr) (line : List Char), i.fits p = true → i.text = some line → readCommand p line = some i

/-! ### Accepting a command -/

/-- 10_state R26: when the foreground is idle and awake, no interrupt is requested and the presented word decodes
to `i`, the step is `exec i` in the state with the word taken from the port; at a turn of the script the script
has moved on. -/
def Obligations.StepRunsDecodedCommand : Prop :=
  ∀ (s : State) (w : Nat) (i : Instr),
    s.irq = false → fgTurn s.onTurn = .accept w → decode s.cfg (BitVec.ofNat _ w) = .ok i →
      s.turn = .go ∨ s.turn = .hold → step s = exec i (takeCmd s.onTurn)

/-- 30_encoding R64, rows 1 and 2: an accepted word whose `OP` is none of the fourteen, or that has a reserved
bit set, is refused by name, and `cmd_ready` is not raised for it. -/
def Obligations.IllegalWordsRefused : Prop :=
  ∀ (s : State) (n : Nat) (w : CmdWord s.cfg), quiet s → fgTurn s = .accept n → w = BitVec.ofNat _ n →
    ((∀ op : Opcode, bitField w s.cfg.opAt 8 ≠ op.code) → step s = .refused .unknownOpcode ∧ s.cmdReady = false) ∧
      (∀ op : Opcode, bitField w s.cfg.opAt 8 = op.code → w &&& op.mask s.cfg ≠ op.pattern s.cfg →
        step s = .refused .reservedBit ∧ s.cmdReady = false)

/-- 30_encoding R64, rows 3 to 6: an ill-formed command is refused in every state, whatever else holds. -/
def Obligations.IllFormedCommandsRefused : Prop :=
  ∀ (i : Instr) (s : State), i.wf = false → ∃ r, exec i s = .refused r

/-! ### Line Driver -/

/-- 10_state R13 and 41 R98: what the block pulls, what the line is, in the three electrical modes. -/
def Obligations.LineLevels : Prop :=
  ∀ s : State,
    (s.padLow = true ↔ s.ld.dir = .output ∧ s.ld.dlatch = .low) ∧
      (s.bus = .low ↔ s.padLow = true ∨ s.extLow = true) ∧
      (s.ld.dir = .output → s.ld.dlatch = .low → s.bus = .low) ∧
      (s.ld.dir = .output → s.ld.dlatch = .high → s.padLow = false ∧ s.bus = if s.extLow then .low else .high) ∧
      (s.ld.dir = .input → s.padLow = false ∧ s.bus = if s.extLow then .low else .high) ∧
      ((∃ t, exec .sample s = .next t) ↔ s.ld.dir = .input)

/-- 41 R95: `DRIVE` writes the latch and nothing else, in every state; with the pin in `input` the line does not
change, with `output` the block pulls exactly when the level is `low`. -/
def Obligations.DriveWritesLatch : Prop :=
  ∀ (l : Level) (s : State),
    ∃ t, exec (.drive l) s = .next t ∧
      t = { s with ld := { s.ld with dlatch := l }, fg := { s.fg with op := none } } ∧
      (s.ld.dir = .input → t.bus = s.bus ∧ t.padLow = s.padLow) ∧
      (s.ld.dir = .output → (t.padLow = true ↔ l = .low))

/-- 41 R96: `SETDIR` writes the direction and nothing else, in every state; the latch survives a switch to
`input` and back. -/
def Obligations.SetdirKeepsLatch : Prop :=
  ∀ (d : Direction) (s : State),
    ∃ t, exec (.setdir d) s = .next t ∧
      t = { s with ld := { s.ld with dir := d }, fg := { s.fg with op := none } } ∧
      (d = .input → t.padLow = false) ∧
      (d = .output → (t.padLow = true ↔ s.ld.dlatch = .low)) ∧
      t.ld.dlatch = s.ld.dlatch

/-- 30_encoding R65: `RESP` after each value-returning command, and that nothing else changes. For `RESET` it is
the last micro-operation that answers. -/
def Obligations.ResultsInResp : Prop :=
  ∀ s : State,
    (s.ld.dir = .input →
      exec .sample s = .next { s with resp := 0#2 ++ s.bus.code, fg := { s.fg with op := none } }) ∧
      (s.ld.dir = .output → exec .sample s = .refused .sampleWhileOutput) ∧
      exec .poll s = .next { s with resp := s.td.phase.code, fg := { s.fg with op := none } } ∧
      exec .tqp s = .next { s with resp := if s.tmr.pend then 1#3 else 0#3, fg := { s.fg with op := none } } ∧
      (s.fg.step = .b9 →
        microStep s = .next { s with resp := if s.fg.s = .low then 1#3 else 0#3, fg := { s.fg with op := none } })

/-! ### Delay Engine -/

/-- 40 R84: the admission of `WAIT_US`, and for an admitted one the state `W0` leaves (40 R81): the flag cleared,
the period `imm` from zero, the pending flag untouched. That the accepting step does `W0` too is the model's choice,
log entry 10; so is that 0 is tested before the phase, log entry 16. -/
def Obligations.WaitUsAdmission : Prop :=
  ∀ (imm : Nat) (s : State),
    (imm = 0 → exec (.waitUs imm) s = .refused .zeroPeriod) ∧
      (imm ≠ 0 → s.td.phase ≠ .done → exec (.waitUs imm) s = .refused .timerInUse) ∧
      (imm ≠ 0 → s.td.phase = .done →
        exec (.waitUs imm) s = .next
          { s with
            de := { tick := false }
            tmr := { s.tmr with period := some imm, cnt := 0, uevEn := true }
            fg := { s.fg with op := some .waitUs, step := .w1 .waitUs, imm := imm } })

/-- 40 R85: the admission of `WAIT_MS` and the state `M0` leaves: neither the flag nor the timer is touched. That the
accepting step does `M0` too is the model's choice, log entry 10. -/
def Obligations.WaitMsAdmission : Prop :=
  ∀ (imm : Nat) (s : State),
    (s.td.phase ≠ .done → exec (.waitMs imm) s = .refused .timerInUse) ∧
      (s.td.phase = .done →
        exec (.waitMs imm) s = .next
          { s with fg := { s.fg with op := some .waitMs, step := .m1, imm := imm, cnt := imm } })

/-- 40 R85: `M1` ends the command when no repetition is left, else counts one down and goes to a wait of `T_MS_US`
(1000) µs. That `M1` and the `W0` of that wait are two steps is the model's, log entry 11. -/
def Obligations.WaitMsRepeats : Prop :=
  ∀ s : State, s.cfg.literalsFit = true → quiet s → fgTurn s = .micro →
    (s.fg.step = .m1 → s.fg.cnt = 0 → step s = .next { s with fg := { s.fg with op := none } }) ∧
      (s.fg.step = .m1 → s.fg.cnt ≠ 0 →
        step s = .next { s with fg := { s.fg with step := .w0 .waitMs, cnt := s.fg.cnt - 1 } }) ∧
      (s.fg.step = .w0 .waitMs →
        step s = .next
          { s with
            de := { tick := false }
            tmr := { s.tmr with period := some s.cfg.tMsUs, cnt := 0, uevEn := true }
            fg := { s.fg with step := .w1 .waitMs } })

/-- 40 R81, `W1` at each of its five places: with the flag set the wait is over and the flag stays set; with the
flag clear the foreground sleeps at the same label. -/
def Obligations.WaitChecksFlag : Prop :=
  ∀ (site : WaitSite) (s : State), quiet s → fgTurn s = .micro → s.fg.step = .w1 site →
    (s.de.tick = false → step s = .next { s with fg := { s.fg with sleeping := true } }) ∧
      (s.de.tick = true → site = .waitUs → step s = .next { s with fg := { s.fg with op := none } }) ∧
      (s.de.tick = true → site = .waitMs → step s = .next { s with fg := { s.fg with step := .m1 } }) ∧
      (s.de.tick = true → site = .resetLow → step s = .next { s with fg := { s.fg with step := .b2 } }) ∧
      (s.de.tick = true → site = .settle → step s = .next { s with fg := { s.fg with step := .b4 } }) ∧
      (s.de.tick = true → site = .remainder → step s = .next { s with fg := { s.fg with step := .b9 } })

/-- 40 R83, lower bound, for any `IRQ_LAT_US`, any script without a hardware reset: an admitted `wait(d)` that
starts with no expiry pending is not over before `d` microseconds have passed. -/
def Obligations.WaitNeverEarly : Prop :=
  ∀ (d : Nat) (s s₁ : State), s.tmr.pend = false → s.noRst = true → exec (.waitUs d) s = .next s₁ →
    ∀ (n : Nat) (t : State), steps n s₁ = .next t → t.fg.op ≠ some .waitUs → s.nowUs + d ≤ t.nowUs

/-- 40 R83: for any `IRQ_LAT_US` and any finite script without a hardware reset, an admitted `wait(d)` of a running
timer with its interrupt enabled and no expiry pending ends, at a `t1` with `t0 + d <= t1 <= t0 + d + IRQ_LAT_US`;
with `IRQ_LAT_US` = 0, at `t0 + d` exactly. -/
def Obligations.WaitTimingContract : Prop :=
  ∀ (d : Nat) (s s₁ : State), idle s → s.tmr.run = true → s.tmr.ie = true → s.tmr.pend = false → s.noRst = true →
    exec (.waitUs d) s = .next s₁ →
      ∃ (n : Nat) (t : State), steps n s₁ = .next t ∧ t.fg.op = none ∧
        (∀ k < n, ∃ u, steps k s₁ = .next u ∧ u.fg.op = some .waitUs) ∧
        s.nowUs + d ≤ t.nowUs ∧ t.nowUs ≤ s.nowUs + d + s.cfg.irqLatUs ∧
        (s.cfg.irqLatUs = 0 → t.nowUs = s.nowUs + d)

/-- 40 R83 and R88 with `IRQ_LAT_US` = 0, whatever WAKE, EXT and CMD steps fall: an admitted `wait(d)` of a running
timer with its interrupt enabled ends, exactly `d` microseconds later, in the state R88 gives. -/
def Obligations.WaitEndsExactly : Prop :=
  ∀ (d : Nat) (s s₁ : State), idle s → s.tmr.run = true → s.tmr.ie = true → s.tmr.pend = false → s.cfg.irqLatUs = 0 →
    s.noRst = true → exec (.waitUs d) s = .next s₁ →
      ∃ (n : Nat) (t : State), steps n s₁ = .next t ∧
        (∀ k < n, ∃ u, steps k s₁ = .next u ∧ u.fg.op = some .waitUs) ∧
        t.nowUs = s.nowUs + d ∧ t.fg.op = none ∧ t.fg.sleeping = false ∧ t.de.tick = true ∧
        t.tmr = { s.tmr with period := some d, cnt := 0, uevEn := true } ∧
        t.td = s.td ∧ t.ld = s.ld ∧ t.resp = s.resp

/-- 40 R85 with nothing from the environment: an admitted `wait_ms(m)` of a running timer with its interrupt enabled
ends exactly `T_MS_US * m` (1000 µs a unit) later; with `m` = 0 neither the flag nor the timer is touched. -/
def Obligations.WaitMsEndsExactly : Prop :=
  ∀ (m : Nat) (s s₁ : State), s.cfg.literalsFit = true → idle s → s.turns = [] →
    s.tmr.run = true → s.tmr.ie = true → s.tmr.pend = false → exec (.waitMs m) s = .next s₁ →
      ∃ (n : Nat) (t : State), steps n s₁ = .next t ∧ t.fg.op = none ∧ t.fg.sleeping = false ∧
        t.nowUs = s.nowUs + s.cfg.tMsUs * m ∧
        (s.cfg.specDurations = true → t.nowUs = s.nowUs + 1000 * m) ∧ t.td = s.td ∧ t.ld = s.ld ∧ t.resp = s.resp ∧
        (m = 0 → t.de = s.de ∧ t.tmr = s.tmr) ∧
        (m ≠ 0 → t.de.tick = true ∧
          t.tmr = { s.tmr with period := some s.cfg.tMsUs, cnt := 0, uevEn := true })

/-- 40 R87: after `W0`, until the first expiry of the new period, `DE.tick` is 0, whatever falls between, if no old
expiry was pending (70 R185). -/
def Obligations.TickClearUntilExpiry : Prop :=
  ∀ (d : Nat) (s s₁ : State), s.tmr.pend = false → s.noRst = true → exec (.waitUs d) s = .next s₁ →
    ∀ (n : Nat) (t : State), steps n s₁ = .next t → t.nowUs < s.nowUs + d → t.de.tick = false

/-- 40 R86: a wait on a timer whose interrupt is not enabled, or that does not run, never ends and is never
refused, whatever the environment does short of a hardware reset. -/
def Obligations.WaitHangsWithoutInterrupt : Prop :=
  ∀ (d : Nat) (s s₁ : State), s.noRst = true →
    (s.tmr.ie = false ∨ (s.tmr.run = false ∧ s.tmr.pend = false)) → exec (.waitUs d) s = .next s₁ →
      ∀ n : Nat, ∃ t, steps n s₁ = .next t ∧ t.fg.op = some .waitUs ∧ t.de.tick = false

/-! ### Blocking Reset Sequencer -/

/-- 42 R113: the admission of `RESET`, and for an admitted one the state `B0` leaves (42 R110): the line driven low
whatever the latch held. That the accepting step does `B0` too is the model's choice, log entry 10; so is which refusal
is given when both conditions hold, log entry 16. -/
def Obligations.ResetAdmission : Prop :=
  ∀ s : State,
    (s.td.phase ≠ .done → exec .reset s = .refused .timerInUse) ∧
      (s.td.phase = .done → s.ld.dir = .input → exec .reset s = .refused .resetNeedsOutput) ∧
      (s.td.phase = .done → s.ld.dir = .output →
        exec .reset s = .next
          { s with
            ld := { s.ld with dlatch := .low }
            fg := { s.fg with op := some .reset, step := .w0 .resetLow } })

/-- 42 R110: the micro-operations of `RESET` after `B0`, each in the state it finds (the `W1`s are in
`WaitChecksFlag`). `STALL` in `B6` is the model's counter `fg.stall`, log entry 5; that `B0`, `B2` and `B7` and the
`W0` after each are two steps is the model's cut, log entry 11; the durations are the parameters of 00_scope R5,
480, 60 and 119 by default. -/
def Obligations.ResetMicroOps : Prop :=
  ∀ s : State, s.cfg.literalsFit = true → quiet s → fgTurn s = .micro →
    (s.fg.step = .w0 .resetLow →
      step s = .next
        { s with
          de := { tick := false }
          tmr := { s.tmr with period := some s.cfg.tResetLowUs, cnt := 0, uevEn := true }
          fg := { s.fg with step := .w1 .resetLow } }) ∧
      (s.fg.step = .b2 →
        step s = .next { s with ld := { s.ld with dlatch := .high }, fg := { s.fg with step := .w0 .settle } }) ∧
      (s.fg.step = .w0 .settle →
        step s = .next
          { s with
            de := { tick := false }
            tmr := { s.tmr with period := some s.cfg.tSettleUs, cnt := 0, uevEn := true }
            fg := { s.fg with step := .w1 .settle } }) ∧
      (s.fg.step = .b4 →
        step s = .next { s with ld := { s.ld with dir := .input }, fg := { s.fg with step := .b5 } }) ∧
      (s.fg.step = .b5 → s.ld.dir = .input →
        step s = .next { s with fg := { s.fg with step := .b6, s := s.bus } }) ∧
      (s.fg.step = .b6 →
        step s = .next { s with fg := { s.fg with step := .b7, stall := s.cfg.tSampleUs } }) ∧
      (s.fg.step = .b7 →
        step s = .next { s with ld := { s.ld with dir := .output }, fg := { s.fg with step := .w0 .remainder } }) ∧
      (s.fg.step = .w0 .remainder →
        step s = .next
          { s with
            de := { tick := false }
            tmr := { s.tmr with period := some s.cfg.tRemainderUs, cnt := 0, uevEn := true }
            fg := { s.fg with step := .w1 .remainder } })

/-- 42 R110, R111, R112 with no interrupt put off and a line whose other devices do not change: an admitted `reset()`
ends `T_RESET_LOW_US + T_SETTLE_US + T_SAMPLE_US + T_REMAINDER_US` microseconds after it started, with the spec's
durations 659 + `T_SAMPLE_US`, with presence = 1 exactly when the line is pulled low, the line released, the pin in
`output`. -/
def Obligations.ResetEndsWithPresence : Prop :=
  ∀ s s₁ : State, s.cfg.literalsFit = true → idle s → s.turns = [] →
    s.tmr.run = true → s.tmr.ie = true → s.tmr.pend = false → exec .reset s = .next s₁ →
      ∃ (n : Nat) (t : State), steps n s₁ = .next t ∧
        t.nowUs = s.nowUs + s.cfg.tResetLowUs + s.cfg.tSettleUs + s.cfg.tSampleUs + s.cfg.tRemainderUs ∧
        (s.cfg.specDurations = true → t.nowUs = s.nowUs + 659 + s.cfg.tSampleUs) ∧ t.fg.op = none ∧ t.fg.sleeping = false ∧
        t.resp = (if s.extLow then 1#3 else 0#3) ∧
        t.ld = { dir := .output, dlatch := .high } ∧ t.de.tick = true ∧
        t.tmr = { s.tmr with period := some s.cfg.tRemainderUs, cnt := 0, uevEn := true } ∧ t.td = s.td

/-- 42 R111, for any `IRQ_LAT_US` and any script that presents no other command: as long as an admitted `reset()` runs,
the block pulls the line low for the first `T_RESET_LOW_US` (480) µs, and no longer pulls it once
`T_RESET_LOW_US + IRQ_LAT_US` µs have passed. -/
def Obligations.ResetLowPulse : Prop :=
  ∀ s s₁ : State, s.cfg.literalsFit = true → idle s → s.noCmd = true →
    s.tmr.run = true → s.tmr.ie = true → s.tmr.pend = false → exec .reset s = .next s₁ →
      ∀ (n : Nat) (t : State), steps n s₁ = .next t → t.fg.op = some .reset →
        (t.nowUs < s.nowUs + s.cfg.tResetLowUs → t.padLow = true) ∧
          (s.nowUs + s.cfg.tResetLowUs + s.cfg.irqLatUs < t.nowUs → t.padLow = false)

/-! ### Interrupt-Driven Reset State Machine -/

/-- 43 R121: the admission of `ARM`, the checks in their order, and for an admitted one the state `A0` leaves (43 R120).
That the accepting step does `A0` too is the model's choice, log entry 10. -/
def Obligations.ArmAdmission : Prop :=
  ∀ (ph : Phase) (per nd : Nat) (nlvl : Level) (s : State),
    exec (.arm ph per nd nlvl) s =
      if s.td.phase ≠ .done then .refused .sequenceActive
      else if ph = .code6 ∨ ph = .code7 then .refused .noSuchPhase
      else if ph = .writeZero ∨ ph = .writeOne ∨ ph = .read then .refused .reservedPhase
      else if ph = .done then .refused .badArm
      else if per = 0 then .refused .zeroPeriod
      else if ph = .reset ∧ nd = 0 then .refused .badArm
      else if ph = .reset ∧ nlvl = .low then .refused .badArm
      else
        .next
          { s with
            td := { phase := ph, nextDelayUs := nd, nextLevel := nlvl }
            tmr :=
              { period := some per, cnt := 0, uevEn := true, run := true, ie := true, pend := false }
            fg := { s.fg with op := none } }

/-- 43 R120, R121: the two admitted shapes of `ARM` complete in an inert state. -/
def Obligations.ArmCompletes : Prop :=
  ∀ (ph : Phase) (per nd : Nat) (nlvl : Level) (s : State), s.td.phase = .done → (Instr.arm ph per nd nlvl).wf = true →
    ∃ t, exec (.arm ph per nd nlvl) s = .next t ∧
      t.td = { phase := ph, nextDelayUs := nd, nextLevel := nlvl } ∧
      t.tmr = { period := some per, cnt := 0, uevEn := true, run := true, ie := true, pend := false } ∧
      t.ld = s.ld ∧ t.de = s.de ∧ t.resp = s.resp

/-- 43 R129: `WAITDONE` ends at once in `Done`, else it waits at `Q0`; `fg.sleeping` is as it was; nothing else changes.
That the accepting step does the first `Q0` too is the model's choice, log entry 10; the flag `yielded` that lets time
pass between two reads is the model's own, log entry 6. -/
def Obligations.WaitdonePolls : Prop :=
  ∀ s : State,
    (s.td.phase = .done →
      exec .waitdone s = .next { s with fg := { s.fg with op := none, step := .q0 } }) ∧
      (s.td.phase ≠ .done →
        exec .waitdone s = .next { s with fg := { s.fg with op := some .waitdone, step := .q0, yielded := true } })

/-- 43 R122: the whole transition function of the handler. -/
def Obligations.HandlerTransition : Prop :=
  ∀ td : Descriptor,
    (td.phase = .reset →
      smStep td = .ok ({ phase := .singleStep, nextDelayUs := 0, nextLevel := td.nextLevel },
        some { level := td.nextLevel, period := td.nextDelayUs })) ∧
      (td.phase = .singleStep → td.nextDelayUs = 0 →
        smStep td = .ok ({ phase := .done, nextDelayUs := 0, nextLevel := td.nextLevel }, none)) ∧
      (td.phase = .singleStep → td.nextDelayUs ≠ 0 →
        smStep td = .ok ({ phase := .singleStep, nextDelayUs := 0, nextLevel := td.nextLevel },
          some { level := td.nextLevel, period := td.nextDelayUs })) ∧
      (td.phase = .done → smStep td = .ok (td, none)) ∧
      (td.phase = .writeZero ∨ td.phase = .writeOne ∨ td.phase = .read ∨ td.phase = .code6 ∨ td.phase = .code7 →
        smStep td = .error .reservedPhase)

/-- 43 R133: started in `Reset` with a delay to come, two IRQ steps reach `Done`, whatever falls between them that
leaves the descriptor alone, and a third changes neither the line nor the timer's period nor its counter. -/
def Obligations.TwoExpiriesReachDone : Prop :=
  ∀ s t u v s₂ s₃ : State, s.td = { phase := .reset, nextDelayUs := 120, nextLevel := .high } →
    takeInterrupt s = .next t → s₂.td = t.td → takeInterrupt s₂ = .next u → s₃.td = u.td → takeInterrupt s₃ = .next v →
      t.td = { phase := .singleStep, nextDelayUs := 0, nextLevel := .high } ∧ t.ld.dlatch = .high ∧
        t.tmr.period = some 120 ∧ t.tmr.cnt = 0 ∧
        u.td = { phase := .done, nextDelayUs := 0, nextLevel := .high } ∧ u.ld = s₂.ld ∧
        u.tmr.period = s₂.tmr.period ∧ u.tmr.cnt = s₂.tmr.cnt ∧
        v.td = s₃.td ∧ v.ld = s₃.ld ∧ v.tmr.period = s₃.tmr.period ∧ v.tmr.cnt = s₃.tmr.cnt

/-- 43 R134 for any first period and next delay: with nothing presented and no script, a descriptor armed in
`Reset` releases the line after exactly `per` µs and is `Done` after exactly `per + nd` µs. -/
def Obligations.ArmedSequenceRuns : Prop :=
  ∀ (per nd : Nat) (s s₁ : State), idle s → s.turns = [] → s.cmd = none →
    exec (.arm .reset per nd .high) s = .next s₁ →
      ∃ (n m : Nat) (t u : State), steps n s₁ = .next t ∧ t.nowUs = s.nowUs + per ∧
        t.td = { phase := .singleStep, nextDelayUs := 0, nextLevel := .high } ∧ t.ld = { s.ld with dlatch := .high } ∧
        (∀ k < n, ∃ v, steps k s₁ = .next v ∧ v.td.phase = .reset ∧ v.ld = s.ld) ∧
        steps m t = .next u ∧ u.nowUs = s.nowUs + per + nd ∧
        u.td = { phase := .done, nextDelayUs := 0, nextLevel := .high } ∧ u.ld = t.ld

/-- 43 R129 after an armed reset sequence, with nothing from the environment: `wait_done()` ends in the microsecond
in which the handler writes `Done`, and the foreground never sleeps on the way. -/
def Obligations.WaitdoneEndsAtDone : Prop :=
  ∀ (per nd : Nat) (s s₁ s₂ : State), idle s → s.turns = [] →
    exec (.arm .reset per nd .high) s = .next s₁ → exec .waitdone s₁ = .next s₂ →
      ∃ (n : Nat) (t : State), steps n s₂ = .next t ∧ t.fg.op = none ∧ t.td.phase = .done ∧
        t.nowUs = s.nowUs + per + nd ∧
        ∀ k ≤ n, ∃ u, steps k s₂ = .next u ∧ u.fg.sleeping = false

/-! ### Timer port -/

/-- 44 R140: the admission of `TSETP` and the state it leaves. That 0 is tested before the phase is the model's choice,
log entry 16. -/
def Obligations.SetPeriodResult : Prop :=
  ∀ (imm : Nat) (s : State),
    (imm = 0 → exec (.tsetp imm) s = .refused .zeroPeriod) ∧
      (imm ≠ 0 → s.td.phase ≠ .done → exec (.tsetp imm) s = .refused .timerInUse) ∧
      (imm ≠ 0 → s.td.phase = .done →
        exec (.tsetp imm) s = .next
          { s with
            tmr := { s.tmr with period := some imm, cnt := 0, uevEn := true }
            fg := { s.fg with op := none, imm := imm } })

/-- 44 R141, R142, R143: `TSTART` with its refusal, `TIEN`, `TCLRP`: one bit of the timer each and nothing else. -/
def Obligations.TimerControlBits : Prop :=
  ∀ s : State,
    (s.tmr.period = none → exec .tstart s = .refused .periodUnwritten) ∧
      (s.tmr.period ≠ none →
        exec .tstart s = .next { s with tmr := { s.tmr with run := true }, fg := { s.fg with op := none } }) ∧
      exec .tien s = .next { s with tmr := { s.tmr with ie := true }, fg := { s.fg with op := none } } ∧
      exec .tclrp s = .next { s with tmr := { s.tmr with pend := false }, fg := { s.fg with op := none } }

/-- 40 R80: `REPROGRAM(p)` refuses 0, leaves exactly the new period with the counter at zero and the pending flag as
it was; then, of a running timer, the first `p` - 1 TICK steps bring no expiry and the `p`-th does. R80 bounds `p` by
`PERIOD_MAX`; that a larger `p` is stored and counted like any other is the model's choice, log entry 17. -/
def Obligations.ReprogramStartsFreshPeriod : Prop :=
  ∀ (p : Nat) (s : State),
    (p = 0 → reprogram p s = .refused .zeroPeriod) ∧
      (p ≠ 0 → ∃ t, reprogram p s = .next t ∧
        t = { s with tmr := { s.tmr with period := some p, cnt := 0, uevEn := true } } ∧
        (s.tmr.run = true →
          (∀ k < p, ∃ u, ticks k t = .next u ∧ u.tmr.cnt = k ∧ u.tmr.pend = s.tmr.pend) ∧
            ∃ u, ticks p t = .next u ∧ u.tmr.cnt = 0 ∧ u.tmr.pend = true))

/-! ### The timer and its interrupt -/

/-- 60 R152, R153: the TICK step. -/
def Obligations.TickCounts : Prop :=
  ∀ s : State,
    (s.tmr.run = true → s.tmr.period = none → tick s = .refused .periodUnwritten) ∧
      (¬(s.tmr.run = true ∧ s.tmr.period = none) →
        ∃ t, tick s = .next t ∧ t.nowUs = s.nowUs + 1 ∧
          (s.tmr.run = false → t.tmr = s.tmr) ∧
          (∀ p, s.tmr.run = true → s.tmr.period = some p → p ≤ s.tmr.cnt + 1 →
            t.tmr = { s.tmr with cnt := 0, pend := s.tmr.pend || s.tmr.uevEn }) ∧
          (∀ p, s.tmr.run = true → s.tmr.period = some p → s.tmr.cnt + 1 < p →
            t.tmr = { s.tmr with cnt := s.tmr.cnt + 1 }) ∧
          sameSequencer s t ∧ t.fg.sleeping = s.fg.sleeping ∧ t.ld = s.ld ∧ t.de = s.de ∧ t.td = s.td ∧ t.resp = s.resp)

/-- 60 R157 with the table of 43 R122: the IRQ step, phase by phase. -/
def Obligations.IrqStepResult : Prop :=
  ∀ s : State,
    (s.td.phase = .done →
      ∃ t, takeInterrupt s = .next t ∧ t.td = s.td ∧ t.ld = s.ld ∧ t.tmr = { s.tmr with pend := false } ∧
        t.de.tick = true ∧ t.fg.sleeping = false) ∧
      (s.td.phase = .singleStep → s.td.nextDelayUs = 0 →
        ∃ t, takeInterrupt s = .next t ∧ t.td = { s.td with phase := .done } ∧ t.ld = s.ld ∧
          t.tmr = { s.tmr with pend := false } ∧ t.de.tick = true ∧ t.fg.sleeping = false) ∧
      (s.td.phase = .reset ∨ s.td.phase = .singleStep → s.td.nextDelayUs ≠ 0 →
        ∃ t, takeInterrupt s = .next t ∧ t.td = { s.td with phase := .singleStep, nextDelayUs := 0 } ∧
          t.ld = { s.ld with dlatch := s.td.nextLevel } ∧
          t.tmr = { s.tmr with period := some s.td.nextDelayUs, cnt := 0, uevEn := true, pend := false } ∧
          t.de.tick = true ∧ t.fg.sleeping = false) ∧
      (phaseEntered s.td.phase = false → takeInterrupt s = .refused .reservedPhase)

/-- 60 R156, R158, R163: what the handler leaves alone. -/
def Obligations.HandlerFrame : Prop :=
  ∀ s t : State, takeInterrupt s = .next t →
    sameSequencer s t ∧ t.ld.dir = s.ld.dir ∧ t.tmr.run = s.tmr.run ∧ t.tmr.ie = s.tmr.ie ∧ t.resp = s.resp ∧
      t.td.nextLevel = s.td.nextLevel ∧ t.nowUs = s.nowUs ∧ t.fg.stall = s.fg.stall ∧ t.extLow = s.extLow ∧
      t.cmd = s.cmd ∧ t.cfg = s.cfg

/-- 00_scope R7, 60 R155: a requested IRQ step that is due, `IRQ_LAT_US` TICK steps after the request (with
`IRQ_LAT_US` = 0 from the first moment), goes before every other step of the block, an enabled foreground action and a
TICK step alike; so does one the script does not put off. `irqAge` is the model's count of those TICK steps, log
entry 3. -/
def Obligations.RequestedIrqGoesFirst : Prop :=
  ∀ s : State, s.irq = true → (s.turn = .go ∨ (s.turn = .hold ∧ s.cfg.irqLatUs ≤ s.irqAge)) →
    step s = takeInterrupt s.onTurn

/-- 00_scope R7, 60 R155: a step moves the clock by at most one microsecond, and only when the foreground has nothing
to do and no requested interrupt is due. That a `WAITDONE` that has read the phase since the last TICK or IRQ step
counts as having nothing to do is the model's, log entry 6 (43 R129 has `Q0` enabled again at once); `irqAge` is the
model's own count, log entry 3. -/
def Obligations.TimePassesOnlyWhenBlocked : Prop :=
  ∀ s t : State, step s = .next t → s.turn ≠ .rst →
    t.nowUs = s.nowUs ∨
      (t.nowUs = s.nowUs + 1 ∧ (s.turn = .go ∨ s.turn = .hold) ∧ fgTurn s.onTurn = .blocked ∧
        (s.irq = true → s.irqAge < s.cfg.irqLatUs))

/-- 60 R165: the WAKE step clears `fg.sleeping` and changes nothing else. -/
def Obligations.WakeStepResult : Prop :=
  ∀ (s : State) (ts : List Turn), s.turns = .wake :: ts →
    step s = .next { s with turns := ts, fg := { s.fg with sleeping := false } }

/-! ### Hardware reset -/

/-- 10_state R32: the value the spec gives every cell after hardware reset, at the model's initial state and after a
hardware-reset step from any state; and the foreground has nothing to do until a command is presented. -/
def Obligations.HardwareResetValues : Prop :=
  ∀ r : State, (r = State.reset ∨ ∃ s : State, s.turn = .rst ∧ step s = .next r) →
    r.ld = { dir := .input, dlatch := .high } ∧
      r.tmr = { period := none, cnt := 0, uevEn := true, run := false, ie := false, pend := false } ∧
      r.de = { tick := false } ∧ r.td = { phase := .done, nextDelayUs := 0, nextLevel := .high } ∧
      r.fg.op = none ∧ r.fg.sleeping = false ∧ r.nowUs = 0 ∧ r.padLow = false ∧ r.irq = false ∧
      (r.cmd = none → fgTurn r = .blocked)

/-- 70 R180: after hardware reset, as long as no command is presented, whatever else the environment does, the block
does nothing: no cell of it changes, the line stays released, no interrupt is requested, no step is refused. A further
hardware reset in the script leaves the same state again; that it puts the same values into `fg.step`, `fg.imm`, `fg.cnt`,
`fg.s` and `RESP`, which 10_state R32 leaves unspecified, is the model's choice, log entry 1. -/
def Obligations.InertUntilCommand : Prop :=
  ∀ (s : State) (n : Nat), s.noCmd = true →
    ∃ t, steps n (hardwareReset s) = .next t ∧ t.ld = (hardwareReset s).ld ∧ t.tmr = (hardwareReset s).tmr ∧
      t.de = (hardwareReset s).de ∧ t.td = (hardwareReset s).td ∧ t.fg = (hardwareReset s).fg ∧
      t.resp = (hardwareReset s).resp ∧ t.padLow = false ∧ t.irq = false

/-! ### The whole machine -/

/-- The invariant holds after hardware reset. -/
def Obligations.InvHoldsAtReset : Prop := BlockInv State.reset

/-- Every step keeps the invariant, from every state that has it. -/
def Obligations.StepKeepsInv : Prop := ∀ s t : State, BlockInv s → step s = .next t → BlockInv t

/-- 93 U11, U12 and 00_scope R8: in every state with the invariant, a refused step is the accepting of a presented
command word; the timer, the handler and a command once accepted are never refused. -/
def Obligations.OnlyAcceptedWordsRefused : Prop :=
  ∀ (s : State) (r : Refusal), BlockInv s → step s = .refused r →
    (s.turn = .go ∨ s.turn = .hold) ∧ ∃ w, s.cmd = some w ∧ s.fg.op = none ∧ s.fg.sleeping = false

/-- 00_scope R5, 10_state R28: no step writes the parameters, and only an EXT step writes `ext_low`. -/
def Obligations.ParametersAndInputsKept : Prop :=
  ∀ s t : State, step s = .next t → t.cfg = s.cfg ∧ ((∀ b, s.turn ≠ .ext b) → t.extLow = s.extLow)

/-- 10_state R17, R18: nothing clears `TMR.run` or `TMR.ie` but hardware reset, and only `TSTART`, `TIEN` and `ARM`
set them. -/
def Obligations.TimerEnablesOnlyRise : Prop :=
  ∀ s t : State, step s = .next t → s.turn ≠ .rst →
    (s.tmr.run = true → t.tmr.run = true) ∧ (s.tmr.ie = true → t.tmr.ie = true) ∧
      (s.tmr.run = false → t.tmr.run = true → ∃ w i, s.cmd = some w ∧
        decode s.cfg (BitVec.ofNat _ w) = .ok i ∧ (i.opcode = .tstart ∨ i.opcode = .arm)) ∧
      (s.tmr.ie = false → t.tmr.ie = true → ∃ w i, s.cmd = some w ∧
        decode s.cfg (BitVec.ofNat _ w) = .ok i ∧ (i.opcode = .tien ∨ i.opcode = .arm))

/-- 10_state R25, 43 R131: while the descriptor is active nothing but the IRQ step writes it, and no step but a
hardware reset stops the timer or its interrupt. -/
def Obligations.ActiveDescriptorOwnedByHandler : Prop :=
  ∀ s t : State, step s = .next t → s.turn ≠ .rst → s.td.phase ≠ .done →
    t.td = s.td ∨ (s.irq = true ∧ ∃ a, smStep s.td = .ok (t.td, a))

/-- 20_memory R47: who sets and who clears `DE.tick`, and who sets `TMR.pend`. -/
def Obligations.FlagWriters : Prop :=
  ∀ s t : State, step s = .next t → s.turn ≠ .rst →
    (s.de.tick = false → t.de.tick = true → s.irq = true ∧ t.tmr.pend = false) ∧
      (s.de.tick = true → t.de.tick = false →
        (∃ site, t.fg.step = .w1 site ∧ t.tmr.cnt = 0 ∧ t.tmr.period = some (waitDuration site t))) ∧
      (s.tmr.pend = false → t.tmr.pend = true → t.nowUs = s.nowUs + 1)

/-- 20_memory R47, 10_state R11, R12: the direction is written by `SETDIR` and `RESET` only, and a command other than
`ARM` leaves the descriptor alone. -/
def Obligations.CommandFrames : Prop :=
  ∀ (i : Instr) (s t : State), exec i s = .next t →
    (i.opcode ≠ .arm → t.td = s.td) ∧
      (i.opcode ≠ .setdir → t.ld.dir = s.ld.dir) ∧
      (i.opcode ≠ .drive → i.opcode ≠ .reset → t.ld.dlatch = s.ld.dlatch) ∧
      (i.opcode ≠ .waitUs → t.de = s.de) ∧
      (i.opcode ≠ .sample → i.opcode ≠ .poll → i.opcode ≠ .tqp → t.resp = s.resp) ∧
      (i.opcode ≠ .waitUs → i.opcode ≠ .arm → i.opcode ≠ .tsetp →
        t.tmr.period = s.tmr.period ∧ t.tmr.cnt = s.tmr.cnt ∧ t.tmr.uevEn = s.tmr.uevEn) ∧
      (i.opcode ≠ .arm → i.opcode ≠ .tclrp → t.tmr.pend = s.tmr.pend) ∧
      (i.opcode ≠ .arm → i.opcode ≠ .tstart → t.tmr.run = s.tmr.run) ∧
      (i.opcode ≠ .arm → i.opcode ≠ .tien → t.tmr.ie = s.tmr.ie) ∧
      t.fg.s = s.fg.s ∧ t.fg.sleeping = s.fg.sleeping ∧ t.nowUs = s.nowUs ∧ t.extLow = s.extLow ∧ t.cmd = s.cmd ∧
      t.turns = s.turns ∧ t.cfg = s.cfg
end

