-- ==== Sys2Proof/Laws/Encode.lean ====
section
/-! SUPPORT. Fields placed in a word and read back from it, for every `TIMER_BITS`. -/

namespace Sys2Proof

variable {p : Params}

theorem getLsbD_placeField {len : Nat} (b : BitVec len) (lo i : Nat) :
    (placeField b lo : CmdWord p).getLsbD i =
      (decide (i < p.cmdBits) && decide (lo ≤ i) && b.getLsbD (i - lo)) := by
  unfold placeField
  rw [BitVec.getLsbD_shiftLeft, BitVec.getLsbD_setWidth]
  by_cases h1 : i < p.cmdBits
  · have : i - lo < p.cmdBits := by omega
    by_cases h2 : lo ≤ i
    · simp [h1, h2, Nat.not_lt.mpr h2, this]
    · simp [h2, Nat.lt_of_not_le h2]
  · simp [h1]

theorem getLsbD_bitField (w : CmdWord p) (lo len i : Nat) :
    (bitField w lo len).getLsbD i = (decide (i < len) && w.getLsbD (lo + i)) := by
  simp [bitField]

theorem bitField_or (v w : CmdWord p) (lo len : Nat) :
    bitField (v ||| w) lo len = bitField v lo len ||| bitField w lo len := by
  apply BitVec.eq_of_getLsbD_eq
  intro i hi
  rw [BitVec.getLsbD_or, getLsbD_bitField, getLsbD_bitField, getLsbD_bitField, BitVec.getLsbD_or]
  simp [hi]

/-- A field reads back what was placed in it. -/
theorem bitField_placeField {len : Nat} (b : BitVec len) (lo : Nat) (h : lo + len ≤ p.cmdBits) :
    bitField (placeField b lo : CmdWord p) lo len = b := by
  apply BitVec.eq_of_getLsbD_eq
  intro i hi
  rw [getLsbD_bitField, getLsbD_placeField]
  simp [hi]
  omega

/-- A field placed elsewhere leaves a field 0. -/
theorem bitField_placeField_disjoint {len : Nat} (b : BitVec len) (lo lo' len' : Nat)
    (h : lo + len ≤ lo' ∨ lo' + len' ≤ lo) : bitField (placeField b lo : CmdWord p) lo' len' = 0#len' := by
  apply BitVec.eq_of_getLsbD_eq
  intro i hi
  rw [getLsbD_bitField, getLsbD_placeField]
  rcases h with h | h
  · have : b.getLsbD (lo' + i - lo) = false := BitVec.getLsbD_of_ge _ _ (by omega)
    simp [this]
  · simp; omega

/-- A count field reads back a count that fits. -/
theorem countField_placeCount {u : Nat} (lo : Nat) (hu : p.fits u = true) (h : lo + p.timerBits ≤ p.cmdBits) :
    (bitField (placeCount u lo : CmdWord p) lo p.timerBits).toNat = u := by
  rw [placeCount, bitField_placeField _ _ h]
  exact Nat.mod_eq_of_lt (by simpa [Params.fits] using hu)

/-- A field that a format gives to an operand is dropped by the mask: what the mask's complement covers is 0. -/
theorem placeField_and_not {len : Nat} (b : BitVec len) (lo : Nat) (v : CmdWord p)
    (h : ∀ i < len, lo + i < p.cmdBits → v.getLsbD (lo + i) = true) : (placeField b lo : CmdWord p) &&& ~~~v = 0 := by
  apply BitVec.eq_of_getLsbD_eq
  intro i hi
  rw [BitVec.getLsbD_and, getLsbD_placeField, BitVec.getLsbD_not]
  by_cases h1 : lo ≤ i
  · by_cases h2 : i - lo < len
    · have := h (i - lo) h2 (by omega)
      rw [Nat.add_sub_cancel' h1] at this
      simp [this]
    · simp [BitVec.getLsbD_of_ge b (i - lo) (by omega)]
  · simp [h1]

/-- A full field is set exactly inside it. -/
theorem getLsbD_placeField_allOnes (len lo i : Nat) :
    (placeField (BitVec.allOnes len) lo : CmdWord p).getLsbD i =
      (decide (i < p.cmdBits) && decide (lo ≤ i) && decide (i < lo + len)) := by
  rw [getLsbD_placeField, BitVec.getLsbD_allOnes]
  by_cases h1 : lo ≤ i
  · simp only [h1, show (i - lo < len) = (i < lo + len) from by simp; omega]
  · simp [h1]

/-- No format gives a bit of `OP` to an operand. -/
theorem getLsbD_operandBits_of_opAt_le (f : Format) (i : Nat) (h : p.opAt ≤ i) :
    (f.operandBits p).getLsbD i = false := by
  cases f <;>
    simp only [Format.operandBits, BitVec.getLsbD_or, getLsbD_placeField_allOnes, BitVec.getLsbD_zero,
      BitVec.ofNat_eq_ofNat, Bool.or_eq_false_iff, Bool.and_eq_false_iff, decide_eq_false_iff_not] <;>
    simp only [Params.opAt, Params.nlvlAt, Params.phAt, Params.perAt, Params.lowAt] at * <;> omega

/-- The mask keeps `OP` whole. -/
theorem pattern_and_mask (op : Opcode) : op.pattern p &&& op.mask p = op.pattern p := by
  apply BitVec.eq_of_getLsbD_eq
  intro i hi
  rw [BitVec.getLsbD_and, Opcode.mask, Format.mask, BitVec.getLsbD_not, Opcode.pattern, getLsbD_placeField]
  by_cases h : p.opAt ≤ i
  · rw [getLsbD_operandBits_of_opAt_le op.format i h]
    simp [hi]
  · simp [h]

/-! ### What each format reads back: `OP`, then the operands -/

theorem bitField_encodeN (op : Opcode) : bitField (encodeN p op) p.opAt 8 = op.code :=
  bitField_placeField _ _ (by simp only [Params.opAt, Params.cmdBits]; omega)

theorem bitField_encodeB (op : Opcode) (b : BitVec 1) :
    bitField (encodeB p op b) p.opAt 8 = op.code ∧ bitField (encodeB p op b) p.lowAt 1 = b := by
  simp only [encodeB, Opcode.pattern, bitField_or]
  rw [bitField_placeField op.code p.opAt (by simp only [Params.opAt, Params.cmdBits]; omega),
    bitField_placeField b p.lowAt (by simp only [Params.lowAt, Params.cmdBits]; omega),
    bitField_placeField_disjoint b p.lowAt p.opAt 8 (.inl (by simp only [Params.opAt, Params.lowAt]; omega)),
    bitField_placeField_disjoint op.code p.opAt p.lowAt 1 (.inr (by simp only [Params.opAt, Params.lowAt]; omega))]
  simp

theorem bitField_encodeI (op : Opcode) {imm : Nat} (h : p.fits imm = true) :
    bitField (encodeI p op imm) p.opAt 8 = op.code ∧ countField (encodeI p op imm) p.lowAt = imm := by
  simp only [encodeI, countField, Opcode.pattern, bitField_or]
  rw [bitField_placeField op.code p.opAt (by simp only [Params.opAt, Params.cmdBits]; omega),
    bitField_placeField_disjoint op.code p.opAt p.lowAt p.timerBits
      (.inr (by simp only [Params.opAt, Params.lowAt]; omega)),
    BitVec.zero_or, countField_placeCount p.lowAt h (by simp only [Params.lowAt, Params.cmdBits]; omega), placeCount,
    bitField_placeField_disjoint _ p.lowAt p.opAt 8 (.inl (by simp only [Params.opAt, Params.lowAt]; omega))]
  simp

/-- A field of format A: what is placed there, the four other fields lying elsewhere. -/
theorem bitField_encodeA (op : Opcode) (nlvl : BitVec 1) (ph : BitVec 3) {per nd : Nat}
    (hper : p.fits per = true) (hnd : p.fits nd = true) :
    bitField (encodeA p op nlvl ph per nd) p.opAt 8 = op.code ∧
      bitField (encodeA p op nlvl ph per nd) p.nlvlAt 1 = nlvl ∧
      bitField (encodeA p op nlvl ph per nd) p.phAt 3 = ph ∧
      countField (encodeA p op nlvl ph per nd) p.perAt = per ∧ countField (encodeA p op nlvl ph per nd) p.lowAt = nd := by
  have own {len : Nat} (b : BitVec len) (lo : Nat) (h : lo + len ≤ 2 * p.timerBits + 16) :
      bitField (placeField b lo : CmdWord p) lo len = b := bitField_placeField b lo h
  have off {len : Nat} (b : BitVec len) (lo lo' len' : Nat) (h : lo + len ≤ lo' ∨ lo' + len' ≤ lo) :
      bitField (placeField b lo : CmdWord p) lo' len' = 0#len' := bitField_placeField_disjoint b lo lo' len' h
  have cper := countField_placeCount (p := p) p.perAt hper (by simp only [Params.perAt, Params.cmdBits]; omega)
  have cnd := countField_placeCount (p := p) p.lowAt hnd (by simp only [Params.lowAt, Params.cmdBits]; omega)
  simp only [encodeA, countField, Opcode.pattern, bitField_or, Params.opAt, Params.nlvlAt, Params.phAt, Params.perAt,
    Params.lowAt] at cper cnd ⊢
  refine ⟨?_, ?_, ?_, ?_, ?_⟩
  · rw [own op.code _ (by omega), off nlvl _ _ _ (by omega), off ph _ _ _ (by omega), placeCount, placeCount,
      off _ _ _ _ (by omega), off _ _ _ _ (by omega)]
    simp
  · rw [off op.code _ _ _ (by omega), own nlvl _ (by omega), off ph _ _ _ (by omega), placeCount, placeCount,
      off _ _ _ _ (by omega), off _ _ _ _ (by omega)]
    simp
  · rw [off op.code _ _ _ (by omega), off nlvl _ _ _ (by omega), own ph _ (by omega), placeCount, placeCount,
      off _ _ _ _ (by omega), off _ _ _ _ (by omega)]
    simp
  · rw [off op.code _ _ _ (by omega), off nlvl _ _ _ (by omega), off ph _ _ _ (by omega)]
    rw [show bitField (placeCount nd 0 : CmdWord p) p.timerBits p.timerBits = 0#p.timerBits from off _ _ _ _ (by omega)]
    simpa using cper
  · rw [off op.code _ _ _ (by omega), off nlvl _ _ _ (by omega), off ph _ _ _ (by omega)]
    rw [show bitField (placeCount per p.timerBits : CmdWord p) 0 p.timerBits = 0#p.timerBits from
      off _ _ _ _ (by omega)]
    simpa using cnd

/-- A count field holds no more than `TIMER_BITS` bits. -/
theorem fits_countField (w : CmdWord p) (lo : Nat) : p.fits (countField w lo) = true :=
  decide_eq_true (bitField w lo p.timerBits).isLt

/-- The counts of a decoded command fit. -/
theorem fits_of_decode {w : CmdWord p} {i : Instr} (h : decode p w = .ok i) : i.fits p = true := by
  unfold decode at h
  split at h
  · cases h
  · split at h
    · cases h
      rename_i op _ _
      cases op <;> simp [Opcode.withOperands, Instr.fits, fits_countField]
    · cases h

end Sys2Proof
end

