-- ==== Sys2Proof/Laws/State.lean ====
section
/-! SUPPORT. What each update of the state does to each field: one lemma a field an update. -/

namespace Sys2Proof.Machine

variable (s : State)

/-! ### `setTick` -/
@[simp] theorem setTick_ld : (setTick s).ld = s.ld := rfl
@[simp] theorem setTick_tmr : (setTick s).tmr = s.tmr := rfl
@[simp] theorem setTick_de : (setTick s).de = { s.de with tick := true } := rfl
@[simp] theorem setTick_td : (setTick s).td = s.td := rfl
@[simp] theorem setTick_fg : (setTick s).fg = s.fg := rfl
@[simp] theorem setTick_resp : (setTick s).resp = s.resp := rfl
@[simp] theorem setTick_nowUs : (setTick s).nowUs = s.nowUs := rfl
@[simp] theorem setTick_extLow : (setTick s).extLow = s.extLow := rfl
@[simp] theorem setTick_cmd : (setTick s).cmd = s.cmd := rfl
@[simp] theorem setTick_turns : (setTick s).turns = s.turns := rfl
@[simp] theorem setTick_irqAge : (setTick s).irqAge = s.irqAge := rfl
@[simp] theorem setTick_cfg : (setTick s).cfg = s.cfg := rfl

/-! ### `clearTick` -/
@[simp] theorem clearTick_ld : (clearTick s).ld = s.ld := rfl
@[simp] theorem clearTick_tmr : (clearTick s).tmr = s.tmr := rfl
@[simp] theorem clearTick_de : (clearTick s).de = { s.de with tick := false } := rfl
@[simp] theorem clearTick_td : (clearTick s).td = s.td := rfl
@[simp] theorem clearTick_fg : (clearTick s).fg = s.fg := rfl
@[simp] theorem clearTick_resp : (clearTick s).resp = s.resp := rfl
@[simp] theorem clearTick_nowUs : (clearTick s).nowUs = s.nowUs := rfl
@[simp] theorem clearTick_extLow : (clearTick s).extLow = s.extLow := rfl
@[simp] theorem clearTick_cmd : (clearTick s).cmd = s.cmd := rfl
@[simp] theorem clearTick_turns : (clearTick s).turns = s.turns := rfl
@[simp] theorem clearTick_irqAge : (clearTick s).irqAge = s.irqAge := rfl
@[simp] theorem clearTick_cfg : (clearTick s).cfg = s.cfg := rfl

/-! ### `setPend` -/
@[simp] theorem setPend_ld : (setPend s).ld = s.ld := rfl
@[simp] theorem setPend_tmr : (setPend s).tmr = { s.tmr with pend := true } := rfl
@[simp] theorem setPend_de : (setPend s).de = s.de := rfl
@[simp] theorem setPend_td : (setPend s).td = s.td := rfl
@[simp] theorem setPend_fg : (setPend s).fg = s.fg := rfl
@[simp] theorem setPend_resp : (setPend s).resp = s.resp := rfl
@[simp] theorem setPend_nowUs : (setPend s).nowUs = s.nowUs := rfl
@[simp] theorem setPend_extLow : (setPend s).extLow = s.extLow := rfl
@[simp] theorem setPend_cmd : (setPend s).cmd = s.cmd := rfl
@[simp] theorem setPend_turns : (setPend s).turns = s.turns := rfl
@[simp] theorem setPend_irqAge : (setPend s).irqAge = s.irqAge := rfl
@[simp] theorem setPend_cfg : (setPend s).cfg = s.cfg := rfl

/-! ### `clearPend` -/
@[simp] theorem clearPend_ld : (clearPend s).ld = s.ld := rfl
@[simp] theorem clearPend_tmr : (clearPend s).tmr = { s.tmr with pend := false } := rfl
@[simp] theorem clearPend_de : (clearPend s).de = s.de := rfl
@[simp] theorem clearPend_td : (clearPend s).td = s.td := rfl
@[simp] theorem clearPend_fg : (clearPend s).fg = s.fg := rfl
@[simp] theorem clearPend_resp : (clearPend s).resp = s.resp := rfl
@[simp] theorem clearPend_nowUs : (clearPend s).nowUs = s.nowUs := rfl
@[simp] theorem clearPend_extLow : (clearPend s).extLow = s.extLow := rfl
@[simp] theorem clearPend_cmd : (clearPend s).cmd = s.cmd := rfl
@[simp] theorem clearPend_turns : (clearPend s).turns = s.turns := rfl
@[simp] theorem clearPend_irqAge : (clearPend s).irqAge = s.irqAge := rfl
@[simp] theorem clearPend_cfg : (clearPend s).cfg = s.cfg := rfl

/-! ### `driveOp` -/
@[simp] theorem driveOp_ld (l : Level) : (driveOp l s).ld = { s.ld with dlatch := l } := rfl
@[simp] theorem driveOp_tmr (l : Level) : (driveOp l s).tmr = s.tmr := rfl
@[simp] theorem driveOp_de (l : Level) : (driveOp l s).de = s.de := rfl
@[simp] theorem driveOp_td (l : Level) : (driveOp l s).td = s.td := rfl
@[simp] theorem driveOp_fg (l : Level) : (driveOp l s).fg = s.fg := rfl
@[simp] theorem driveOp_resp (l : Level) : (driveOp l s).resp = s.resp := rfl
@[simp] theorem driveOp_nowUs (l : Level) : (driveOp l s).nowUs = s.nowUs := rfl
@[simp] theorem driveOp_extLow (l : Level) : (driveOp l s).extLow = s.extLow := rfl
@[simp] theorem driveOp_cmd (l : Level) : (driveOp l s).cmd = s.cmd := rfl
@[simp] theorem driveOp_turns (l : Level) : (driveOp l s).turns = s.turns := rfl
@[simp] theorem driveOp_irqAge (l : Level) : (driveOp l s).irqAge = s.irqAge := rfl
@[simp] theorem driveOp_cfg (l : Level) : (driveOp l s).cfg = s.cfg := rfl

/-! ### `setdirOp` -/
@[simp] theorem setdirOp_ld (d : Direction) : (setdirOp d s).ld = { s.ld with dir := d } := rfl
@[simp] theorem setdirOp_tmr (d : Direction) : (setdirOp d s).tmr = s.tmr := rfl
@[simp] theorem setdirOp_de (d : Direction) : (setdirOp d s).de = s.de := rfl
@[simp] theorem setdirOp_td (d : Direction) : (setdirOp d s).td = s.td := rfl
@[simp] theorem setdirOp_fg (d : Direction) : (setdirOp d s).fg = s.fg := rfl
@[simp] theorem setdirOp_resp (d : Direction) : (setdirOp d s).resp = s.resp := rfl
@[simp] theorem setdirOp_nowUs (d : Direction) : (setdirOp d s).nowUs = s.nowUs := rfl
@[simp] theorem setdirOp_extLow (d : Direction) : (setdirOp d s).extLow = s.extLow := rfl
@[simp] theorem setdirOp_cmd (d : Direction) : (setdirOp d s).cmd = s.cmd := rfl
@[simp] theorem setdirOp_turns (d : Direction) : (setdirOp d s).turns = s.turns := rfl
@[simp] theorem setdirOp_irqAge (d : Direction) : (setdirOp d s).irqAge = s.irqAge := rfl
@[simp] theorem setdirOp_cfg (d : Direction) : (setdirOp d s).cfg = s.cfg := rfl

/-! ### `startTimer` -/
@[simp] theorem startTimer_ld : (startTimer s).ld = s.ld := rfl
@[simp] theorem startTimer_tmr : (startTimer s).tmr = { s.tmr with run := true } := rfl
@[simp] theorem startTimer_de : (startTimer s).de = s.de := rfl
@[simp] theorem startTimer_td : (startTimer s).td = s.td := rfl
@[simp] theorem startTimer_fg : (startTimer s).fg = s.fg := rfl
@[simp] theorem startTimer_resp : (startTimer s).resp = s.resp := rfl
@[simp] theorem startTimer_nowUs : (startTimer s).nowUs = s.nowUs := rfl
@[simp] theorem startTimer_extLow : (startTimer s).extLow = s.extLow := rfl
@[simp] theorem startTimer_cmd : (startTimer s).cmd = s.cmd := rfl
@[simp] theorem startTimer_turns : (startTimer s).turns = s.turns := rfl
@[simp] theorem startTimer_irqAge : (startTimer s).irqAge = s.irqAge := rfl
@[simp] theorem startTimer_cfg : (startTimer s).cfg = s.cfg := rfl

/-! ### `enableIrq` -/
@[simp] theorem enableIrq_ld : (enableIrq s).ld = s.ld := rfl
@[simp] theorem enableIrq_tmr : (enableIrq s).tmr = { s.tmr with ie := true } := rfl
@[simp] theorem enableIrq_de : (enableIrq s).de = s.de := rfl
@[simp] theorem enableIrq_td : (enableIrq s).td = s.td := rfl
@[simp] theorem enableIrq_fg : (enableIrq s).fg = s.fg := rfl
@[simp] theorem enableIrq_resp : (enableIrq s).resp = s.resp := rfl
@[simp] theorem enableIrq_nowUs : (enableIrq s).nowUs = s.nowUs := rfl
@[simp] theorem enableIrq_extLow : (enableIrq s).extLow = s.extLow := rfl
@[simp] theorem enableIrq_cmd : (enableIrq s).cmd = s.cmd := rfl
@[simp] theorem enableIrq_turns : (enableIrq s).turns = s.turns := rfl
@[simp] theorem enableIrq_irqAge : (enableIrq s).irqAge = s.irqAge := rfl
@[simp] theorem enableIrq_cfg : (enableIrq s).cfg = s.cfg := rfl

/-! ### `setCnt` -/
@[simp] theorem setCnt_ld (c : Nat) : (setCnt c s).ld = s.ld := rfl
@[simp] theorem setCnt_tmr (c : Nat) : (setCnt c s).tmr = { s.tmr with cnt := c } := rfl
@[simp] theorem setCnt_de (c : Nat) : (setCnt c s).de = s.de := rfl
@[simp] theorem setCnt_td (c : Nat) : (setCnt c s).td = s.td := rfl
@[simp] theorem setCnt_fg (c : Nat) : (setCnt c s).fg = s.fg := rfl
@[simp] theorem setCnt_resp (c : Nat) : (setCnt c s).resp = s.resp := rfl
@[simp] theorem setCnt_nowUs (c : Nat) : (setCnt c s).nowUs = s.nowUs := rfl
@[simp] theorem setCnt_extLow (c : Nat) : (setCnt c s).extLow = s.extLow := rfl
@[simp] theorem setCnt_cmd (c : Nat) : (setCnt c s).cmd = s.cmd := rfl
@[simp] theorem setCnt_turns (c : Nat) : (setCnt c s).turns = s.turns := rfl
@[simp] theorem setCnt_irqAge (c : Nat) : (setCnt c s).irqAge = s.irqAge := rfl
@[simp] theorem setCnt_cfg (c : Nat) : (setCnt c s).cfg = s.cfg := rfl

/-! ### `passMicrosecond` -/
@[simp] theorem passMicrosecond_ld : (passMicrosecond s).ld = s.ld := rfl
@[simp] theorem passMicrosecond_tmr : (passMicrosecond s).tmr = s.tmr := rfl
@[simp] theorem passMicrosecond_de : (passMicrosecond s).de = s.de := rfl
@[simp] theorem passMicrosecond_td : (passMicrosecond s).td = s.td := rfl
@[simp] theorem passMicrosecond_fg : (passMicrosecond s).fg = { s.fg with stall := s.fg.stall - 1, yielded := false } := rfl
@[simp] theorem passMicrosecond_resp : (passMicrosecond s).resp = s.resp := rfl
@[simp] theorem passMicrosecond_nowUs : (passMicrosecond s).nowUs = s.nowUs + 1 := rfl
@[simp] theorem passMicrosecond_extLow : (passMicrosecond s).extLow = s.extLow := rfl
@[simp] theorem passMicrosecond_cmd : (passMicrosecond s).cmd = s.cmd := rfl
@[simp] theorem passMicrosecond_turns : (passMicrosecond s).turns = s.turns := rfl
@[simp] theorem passMicrosecond_irqAge : (passMicrosecond s).irqAge = if s.irq then s.irqAge + 1 else 0 := rfl
@[simp] theorem passMicrosecond_cfg : (passMicrosecond s).cfg = s.cfg := rfl

/-! ### `beginCommand` -/
@[simp] theorem beginCommand_ld (op : Opcode) (l : Label) : (beginCommand op l s).ld = s.ld := rfl
@[simp] theorem beginCommand_tmr (op : Opcode) (l : Label) : (beginCommand op l s).tmr = s.tmr := rfl
@[simp] theorem beginCommand_de (op : Opcode) (l : Label) : (beginCommand op l s).de = s.de := rfl
@[simp] theorem beginCommand_td (op : Opcode) (l : Label) : (beginCommand op l s).td = s.td := rfl
@[simp] theorem beginCommand_fg (op : Opcode) (l : Label) : (beginCommand op l s).fg = { s.fg with op := some op, step := l } := rfl
@[simp] theorem beginCommand_resp (op : Opcode) (l : Label) : (beginCommand op l s).resp = s.resp := rfl
@[simp] theorem beginCommand_nowUs (op : Opcode) (l : Label) : (beginCommand op l s).nowUs = s.nowUs := rfl
@[simp] theorem beginCommand_extLow (op : Opcode) (l : Label) : (beginCommand op l s).extLow = s.extLow := rfl
@[simp] theorem beginCommand_cmd (op : Opcode) (l : Label) : (beginCommand op l s).cmd = s.cmd := rfl
@[simp] theorem beginCommand_turns (op : Opcode) (l : Label) : (beginCommand op l s).turns = s.turns := rfl
@[simp] theorem beginCommand_irqAge (op : Opcode) (l : Label) : (beginCommand op l s).irqAge = s.irqAge := rfl
@[simp] theorem beginCommand_cfg (op : Opcode) (l : Label) : (beginCommand op l s).cfg = s.cfg := rfl

/-! ### `setImm` -/
@[simp] theorem setImm_ld (imm : Nat) : (setImm imm s).ld = s.ld := rfl
@[simp] theorem setImm_tmr (imm : Nat) : (setImm imm s).tmr = s.tmr := rfl
@[simp] theorem setImm_de (imm : Nat) : (setImm imm s).de = s.de := rfl
@[simp] theorem setImm_td (imm : Nat) : (setImm imm s).td = s.td := rfl
@[simp] theorem setImm_fg (imm : Nat) : (setImm imm s).fg = { s.fg with imm := imm } := rfl
@[simp] theorem setImm_resp (imm : Nat) : (setImm imm s).resp = s.resp := rfl
@[simp] theorem setImm_nowUs (imm : Nat) : (setImm imm s).nowUs = s.nowUs := rfl
@[simp] theorem setImm_extLow (imm : Nat) : (setImm imm s).extLow = s.extLow := rfl
@[simp] theorem setImm_cmd (imm : Nat) : (setImm imm s).cmd = s.cmd := rfl
@[simp] theorem setImm_turns (imm : Nat) : (setImm imm s).turns = s.turns := rfl
@[simp] theorem setImm_irqAge (imm : Nat) : (setImm imm s).irqAge = s.irqAge := rfl
@[simp] theorem setImm_cfg (imm : Nat) : (setImm imm s).cfg = s.cfg := rfl

/-! ### `goto` -/
@[simp] theorem goto_ld (l : Label) : (goto l s).ld = s.ld := rfl
@[simp] theorem goto_tmr (l : Label) : (goto l s).tmr = s.tmr := rfl
@[simp] theorem goto_de (l : Label) : (goto l s).de = s.de := rfl
@[simp] theorem goto_td (l : Label) : (goto l s).td = s.td := rfl
@[simp] theorem goto_fg (l : Label) : (goto l s).fg = { s.fg with step := l } := rfl
@[simp] theorem goto_resp (l : Label) : (goto l s).resp = s.resp := rfl
@[simp] theorem goto_nowUs (l : Label) : (goto l s).nowUs = s.nowUs := rfl
@[simp] theorem goto_extLow (l : Label) : (goto l s).extLow = s.extLow := rfl
@[simp] theorem goto_cmd (l : Label) : (goto l s).cmd = s.cmd := rfl
@[simp] theorem goto_turns (l : Label) : (goto l s).turns = s.turns := rfl
@[simp] theorem goto_irqAge (l : Label) : (goto l s).irqAge = s.irqAge := rfl
@[simp] theorem goto_cfg (l : Label) : (goto l s).cfg = s.cfg := rfl

/-! ### `finish` -/
@[simp] theorem finish_ld : (finish s).ld = s.ld := rfl
@[simp] theorem finish_tmr : (finish s).tmr = s.tmr := rfl
@[simp] theorem finish_de : (finish s).de = s.de := rfl
@[simp] theorem finish_td : (finish s).td = s.td := rfl
@[simp] theorem finish_fg : (finish s).fg = { s.fg with op := none } := rfl
@[simp] theorem finish_resp : (finish s).resp = s.resp := rfl
@[simp] theorem finish_nowUs : (finish s).nowUs = s.nowUs := rfl
@[simp] theorem finish_extLow : (finish s).extLow = s.extLow := rfl
@[simp] theorem finish_cmd : (finish s).cmd = s.cmd := rfl
@[simp] theorem finish_turns : (finish s).turns = s.turns := rfl
@[simp] theorem finish_irqAge : (finish s).irqAge = s.irqAge := rfl
@[simp] theorem finish_cfg : (finish s).cfg = s.cfg := rfl

/-! ### `sleep` -/
@[simp] theorem sleep_ld : (sleep s).ld = s.ld := rfl
@[simp] theorem sleep_tmr : (sleep s).tmr = s.tmr := rfl
@[simp] theorem sleep_de : (sleep s).de = s.de := rfl
@[simp] theorem sleep_td : (sleep s).td = s.td := rfl
@[simp] theorem sleep_fg : (sleep s).fg = { s.fg with sleeping := true } := rfl
@[simp] theorem sleep_resp : (sleep s).resp = s.resp := rfl
@[simp] theorem sleep_nowUs : (sleep s).nowUs = s.nowUs := rfl
@[simp] theorem sleep_extLow : (sleep s).extLow = s.extLow := rfl
@[simp] theorem sleep_cmd : (sleep s).cmd = s.cmd := rfl
@[simp] theorem sleep_turns : (sleep s).turns = s.turns := rfl
@[simp] theorem sleep_irqAge : (sleep s).irqAge = s.irqAge := rfl
@[simp] theorem sleep_cfg : (sleep s).cfg = s.cfg := rfl

/-! ### `wake` -/
@[simp] theorem wake_ld : (wake s).ld = s.ld := rfl
@[simp] theorem wake_tmr : (wake s).tmr = s.tmr := rfl
@[simp] theorem wake_de : (wake s).de = s.de := rfl
@[simp] theorem wake_td : (wake s).td = s.td := rfl
@[simp] theorem wake_fg : (wake s).fg = { s.fg with sleeping := false } := rfl
@[simp] theorem wake_resp : (wake s).resp = s.resp := rfl
@[simp] theorem wake_nowUs : (wake s).nowUs = s.nowUs := rfl
@[simp] theorem wake_extLow : (wake s).extLow = s.extLow := rfl
@[simp] theorem wake_cmd : (wake s).cmd = s.cmd := rfl
@[simp] theorem wake_turns : (wake s).turns = s.turns := rfl
@[simp] theorem wake_irqAge : (wake s).irqAge = s.irqAge := rfl
@[simp] theorem wake_cfg : (wake s).cfg = s.cfg := rfl

/-! ### `stall` -/
@[simp] theorem stall_ld (k : Nat) : (stall k s).ld = s.ld := rfl
@[simp] theorem stall_tmr (k : Nat) : (stall k s).tmr = s.tmr := rfl
@[simp] theorem stall_de (k : Nat) : (stall k s).de = s.de := rfl
@[simp] theorem stall_td (k : Nat) : (stall k s).td = s.td := rfl
@[simp] theorem stall_fg (k : Nat) : (stall k s).fg = { s.fg with stall := k } := rfl
@[simp] theorem stall_resp (k : Nat) : (stall k s).resp = s.resp := rfl
@[simp] theorem stall_nowUs (k : Nat) : (stall k s).nowUs = s.nowUs := rfl
@[simp] theorem stall_extLow (k : Nat) : (stall k s).extLow = s.extLow := rfl
@[simp] theorem stall_cmd (k : Nat) : (stall k s).cmd = s.cmd := rfl
@[simp] theorem stall_turns (k : Nat) : (stall k s).turns = s.turns := rfl
@[simp] theorem stall_irqAge (k : Nat) : (stall k s).irqAge = s.irqAge := rfl
@[simp] theorem stall_cfg (k : Nat) : (stall k s).cfg = s.cfg := rfl

/-! ### `yieldTurn` -/
@[simp] theorem yieldTurn_ld : (yieldTurn s).ld = s.ld := rfl
@[simp] theorem yieldTurn_tmr : (yieldTurn s).tmr = s.tmr := rfl
@[simp] theorem yieldTurn_de : (yieldTurn s).de = s.de := rfl
@[simp] theorem yieldTurn_td : (yieldTurn s).td = s.td := rfl
@[simp] theorem yieldTurn_fg : (yieldTurn s).fg = { s.fg with yielded := true } := rfl
@[simp] theorem yieldTurn_resp : (yieldTurn s).resp = s.resp := rfl
@[simp] theorem yieldTurn_nowUs : (yieldTurn s).nowUs = s.nowUs := rfl
@[simp] theorem yieldTurn_extLow : (yieldTurn s).extLow = s.extLow := rfl
@[simp] theorem yieldTurn_cmd : (yieldTurn s).cmd = s.cmd := rfl
@[simp] theorem yieldTurn_turns : (yieldTurn s).turns = s.turns := rfl
@[simp] theorem yieldTurn_irqAge : (yieldTurn s).irqAge = s.irqAge := rfl
@[simp] theorem yieldTurn_cfg : (yieldTurn s).cfg = s.cfg := rfl

/-! ### `setRepeat` -/
@[simp] theorem setRepeat_ld (c : Nat) : (setRepeat c s).ld = s.ld := rfl
@[simp] theorem setRepeat_tmr (c : Nat) : (setRepeat c s).tmr = s.tmr := rfl
@[simp] theorem setRepeat_de (c : Nat) : (setRepeat c s).de = s.de := rfl
@[simp] theorem setRepeat_td (c : Nat) : (setRepeat c s).td = s.td := rfl
@[simp] theorem setRepeat_fg (c : Nat) : (setRepeat c s).fg = { s.fg with cnt := c } := rfl
@[simp] theorem setRepeat_resp (c : Nat) : (setRepeat c s).resp = s.resp := rfl
@[simp] theorem setRepeat_nowUs (c : Nat) : (setRepeat c s).nowUs = s.nowUs := rfl
@[simp] theorem setRepeat_extLow (c : Nat) : (setRepeat c s).extLow = s.extLow := rfl
@[simp] theorem setRepeat_cmd (c : Nat) : (setRepeat c s).cmd = s.cmd := rfl
@[simp] theorem setRepeat_turns (c : Nat) : (setRepeat c s).turns = s.turns := rfl
@[simp] theorem setRepeat_irqAge (c : Nat) : (setRepeat c s).irqAge = s.irqAge := rfl
@[simp] theorem setRepeat_cfg (c : Nat) : (setRepeat c s).cfg = s.cfg := rfl

/-! ### `setSampled` -/
@[simp] theorem setSampled_ld (l : Level) : (setSampled l s).ld = s.ld := rfl
@[simp] theorem setSampled_tmr (l : Level) : (setSampled l s).tmr = s.tmr := rfl
@[simp] theorem setSampled_de (l : Level) : (setSampled l s).de = s.de := rfl
@[simp] theorem setSampled_td (l : Level) : (setSampled l s).td = s.td := rfl
@[simp] theorem setSampled_fg (l : Level) : (setSampled l s).fg = { s.fg with s := l } := rfl
@[simp] theorem setSampled_resp (l : Level) : (setSampled l s).resp = s.resp := rfl
@[simp] theorem setSampled_nowUs (l : Level) : (setSampled l s).nowUs = s.nowUs := rfl
@[simp] theorem setSampled_extLow (l : Level) : (setSampled l s).extLow = s.extLow := rfl
@[simp] theorem setSampled_cmd (l : Level) : (setSampled l s).cmd = s.cmd := rfl
@[simp] theorem setSampled_turns (l : Level) : (setSampled l s).turns = s.turns := rfl
@[simp] theorem setSampled_irqAge (l : Level) : (setSampled l s).irqAge = s.irqAge := rfl
@[simp] theorem setSampled_cfg (l : Level) : (setSampled l s).cfg = s.cfg := rfl

/-! ### `setResp` -/
@[simp] theorem setResp_ld (v : Resp) : (setResp v s).ld = s.ld := rfl
@[simp] theorem setResp_tmr (v : Resp) : (setResp v s).tmr = s.tmr := rfl
@[simp] theorem setResp_de (v : Resp) : (setResp v s).de = s.de := rfl
@[simp] theorem setResp_td (v : Resp) : (setResp v s).td = s.td := rfl
@[simp] theorem setResp_fg (v : Resp) : (setResp v s).fg = s.fg := rfl
@[simp] theorem setResp_resp (v : Resp) : (setResp v s).resp = v := rfl
@[simp] theorem setResp_nowUs (v : Resp) : (setResp v s).nowUs = s.nowUs := rfl
@[simp] theorem setResp_extLow (v : Resp) : (setResp v s).extLow = s.extLow := rfl
@[simp] theorem setResp_cmd (v : Resp) : (setResp v s).cmd = s.cmd := rfl
@[simp] theorem setResp_turns (v : Resp) : (setResp v s).turns = s.turns := rfl
@[simp] theorem setResp_irqAge (v : Resp) : (setResp v s).irqAge = s.irqAge := rfl
@[simp] theorem setResp_cfg (v : Resp) : (setResp v s).cfg = s.cfg := rfl

/-! ### `respond` -/
@[simp] theorem respond_ld (v : Resp) : (respond v s).ld = s.ld := rfl
@[simp] theorem respond_tmr (v : Resp) : (respond v s).tmr = s.tmr := rfl
@[simp] theorem respond_de (v : Resp) : (respond v s).de = s.de := rfl
@[simp] theorem respond_td (v : Resp) : (respond v s).td = s.td := rfl
@[simp] theorem respond_fg (v : Resp) : (respond v s).fg = { s.fg with op := none } := rfl
@[simp] theorem respond_resp (v : Resp) : (respond v s).resp = v := rfl
@[simp] theorem respond_nowUs (v : Resp) : (respond v s).nowUs = s.nowUs := rfl
@[simp] theorem respond_extLow (v : Resp) : (respond v s).extLow = s.extLow := rfl
@[simp] theorem respond_cmd (v : Resp) : (respond v s).cmd = s.cmd := rfl
@[simp] theorem respond_turns (v : Resp) : (respond v s).turns = s.turns := rfl
@[simp] theorem respond_irqAge (v : Resp) : (respond v s).irqAge = s.irqAge := rfl
@[simp] theorem respond_cfg (v : Resp) : (respond v s).cfg = s.cfg := rfl

/-! ### `setTd` -/
@[simp] theorem setTd_ld (td : Descriptor) : (setTd td s).ld = s.ld := rfl
@[simp] theorem setTd_tmr (td : Descriptor) : (setTd td s).tmr = s.tmr := rfl
@[simp] theorem setTd_de (td : Descriptor) : (setTd td s).de = s.de := rfl
@[simp] theorem setTd_td (td : Descriptor) : (setTd td s).td = td := rfl
@[simp] theorem setTd_fg (td : Descriptor) : (setTd td s).fg = s.fg := rfl
@[simp] theorem setTd_resp (td : Descriptor) : (setTd td s).resp = s.resp := rfl
@[simp] theorem setTd_nowUs (td : Descriptor) : (setTd td s).nowUs = s.nowUs := rfl
@[simp] theorem setTd_extLow (td : Descriptor) : (setTd td s).extLow = s.extLow := rfl
@[simp] theorem setTd_cmd (td : Descriptor) : (setTd td s).cmd = s.cmd := rfl
@[simp] theorem setTd_turns (td : Descriptor) : (setTd td s).turns = s.turns := rfl
@[simp] theorem setTd_irqAge (td : Descriptor) : (setTd td s).irqAge = s.irqAge := rfl
@[simp] theorem setTd_cfg (td : Descriptor) : (setTd td s).cfg = s.cfg := rfl

/-! ### `irqPrologue` -/
@[simp] theorem irqPrologue_ld : (irqPrologue s).ld = s.ld := rfl
@[simp] theorem irqPrologue_tmr : (irqPrologue s).tmr = { s.tmr with pend := false } := rfl
@[simp] theorem irqPrologue_de : (irqPrologue s).de = { s.de with tick := true } := rfl
@[simp] theorem irqPrologue_td : (irqPrologue s).td = s.td := rfl
@[simp] theorem irqPrologue_fg : (irqPrologue s).fg = { s.fg with sleeping := false } := rfl
@[simp] theorem irqPrologue_resp : (irqPrologue s).resp = s.resp := rfl
@[simp] theorem irqPrologue_nowUs : (irqPrologue s).nowUs = s.nowUs := rfl
@[simp] theorem irqPrologue_extLow : (irqPrologue s).extLow = s.extLow := rfl
@[simp] theorem irqPrologue_cmd : (irqPrologue s).cmd = s.cmd := rfl
@[simp] theorem irqPrologue_turns : (irqPrologue s).turns = s.turns := rfl
@[simp] theorem irqPrologue_irqAge : (irqPrologue s).irqAge = s.irqAge := rfl
@[simp] theorem irqPrologue_cfg : (irqPrologue s).cfg = s.cfg := rfl

/-! ### `settleIrq` -/
@[simp] theorem settleIrq_ld : (settleIrq s).ld = s.ld := rfl
@[simp] theorem settleIrq_tmr : (settleIrq s).tmr = s.tmr := rfl
@[simp] theorem settleIrq_de : (settleIrq s).de = s.de := rfl
@[simp] theorem settleIrq_td : (settleIrq s).td = s.td := rfl
@[simp] theorem settleIrq_fg : (settleIrq s).fg = { s.fg with yielded := false } := rfl
@[simp] theorem settleIrq_resp : (settleIrq s).resp = s.resp := rfl
@[simp] theorem settleIrq_nowUs : (settleIrq s).nowUs = s.nowUs := rfl
@[simp] theorem settleIrq_extLow : (settleIrq s).extLow = s.extLow := rfl
@[simp] theorem settleIrq_cmd : (settleIrq s).cmd = s.cmd := rfl
@[simp] theorem settleIrq_turns : (settleIrq s).turns = s.turns := rfl
@[simp] theorem settleIrq_irqAge : (settleIrq s).irqAge = 0 := rfl
@[simp] theorem settleIrq_cfg : (settleIrq s).cfg = s.cfg := rfl

/-! ### `takeCmd` -/
@[simp] theorem takeCmd_ld : (takeCmd s).ld = s.ld := rfl
@[simp] theorem takeCmd_tmr : (takeCmd s).tmr = s.tmr := rfl
@[simp] theorem takeCmd_de : (takeCmd s).de = s.de := rfl
@[simp] theorem takeCmd_td : (takeCmd s).td = s.td := rfl
@[simp] theorem takeCmd_fg : (takeCmd s).fg = s.fg := rfl
@[simp] theorem takeCmd_resp : (takeCmd s).resp = s.resp := rfl
@[simp] theorem takeCmd_nowUs : (takeCmd s).nowUs = s.nowUs := rfl
@[simp] theorem takeCmd_extLow : (takeCmd s).extLow = s.extLow := rfl
@[simp] theorem takeCmd_cmd : (takeCmd s).cmd = none := rfl
@[simp] theorem takeCmd_turns : (takeCmd s).turns = s.turns := rfl
@[simp] theorem takeCmd_irqAge : (takeCmd s).irqAge = s.irqAge := rfl
@[simp] theorem takeCmd_cfg : (takeCmd s).cfg = s.cfg := rfl

/-! ### `setExt` -/
@[simp] theorem setExt_ld (b : Bool) : (setExt b s).ld = s.ld := rfl
@[simp] theorem setExt_tmr (b : Bool) : (setExt b s).tmr = s.tmr := rfl
@[simp] theorem setExt_de (b : Bool) : (setExt b s).de = s.de := rfl
@[simp] theorem setExt_td (b : Bool) : (setExt b s).td = s.td := rfl
@[simp] theorem setExt_fg (b : Bool) : (setExt b s).fg = s.fg := rfl
@[simp] theorem setExt_resp (b : Bool) : (setExt b s).resp = s.resp := rfl
@[simp] theorem setExt_nowUs (b : Bool) : (setExt b s).nowUs = s.nowUs := rfl
@[simp] theorem setExt_extLow (b : Bool) : (setExt b s).extLow = b := rfl
@[simp] theorem setExt_cmd (b : Bool) : (setExt b s).cmd = s.cmd := rfl
@[simp] theorem setExt_turns (b : Bool) : (setExt b s).turns = s.turns := rfl
@[simp] theorem setExt_irqAge (b : Bool) : (setExt b s).irqAge = s.irqAge := rfl
@[simp] theorem setExt_cfg (b : Bool) : (setExt b s).cfg = s.cfg := rfl

/-! ### `presentCmd` -/
@[simp] theorem presentCmd_ld (w : Nat) : (presentCmd w s).ld = s.ld := rfl
@[simp] theorem presentCmd_tmr (w : Nat) : (presentCmd w s).tmr = s.tmr := rfl
@[simp] theorem presentCmd_de (w : Nat) : (presentCmd w s).de = s.de := rfl
@[simp] theorem presentCmd_td (w : Nat) : (presentCmd w s).td = s.td := rfl
@[simp] theorem presentCmd_fg (w : Nat) : (presentCmd w s).fg = s.fg := rfl
@[simp] theorem presentCmd_resp (w : Nat) : (presentCmd w s).resp = s.resp := rfl
@[simp] theorem presentCmd_nowUs (w : Nat) : (presentCmd w s).nowUs = s.nowUs := rfl
@[simp] theorem presentCmd_extLow (w : Nat) : (presentCmd w s).extLow = s.extLow := rfl
@[simp] theorem presentCmd_cmd (w : Nat) : (presentCmd w s).cmd = some (portWord s.cfg w) := rfl
@[simp] theorem presentCmd_turns (w : Nat) : (presentCmd w s).turns = s.turns := rfl
@[simp] theorem presentCmd_irqAge (w : Nat) : (presentCmd w s).irqAge = s.irqAge := rfl
@[simp] theorem presentCmd_cfg (w : Nat) : (presentCmd w s).cfg = s.cfg := rfl

/-! ### `setTurns` -/
@[simp] theorem setTurns_ld (ts : List Turn) : (setTurns ts s).ld = s.ld := rfl
@[simp] theorem setTurns_tmr (ts : List Turn) : (setTurns ts s).tmr = s.tmr := rfl
@[simp] theorem setTurns_de (ts : List Turn) : (setTurns ts s).de = s.de := rfl
@[simp] theorem setTurns_td (ts : List Turn) : (setTurns ts s).td = s.td := rfl
@[simp] theorem setTurns_fg (ts : List Turn) : (setTurns ts s).fg = s.fg := rfl
@[simp] theorem setTurns_resp (ts : List Turn) : (setTurns ts s).resp = s.resp := rfl
@[simp] theorem setTurns_nowUs (ts : List Turn) : (setTurns ts s).nowUs = s.nowUs := rfl
@[simp] theorem setTurns_extLow (ts : List Turn) : (setTurns ts s).extLow = s.extLow := rfl
@[simp] theorem setTurns_cmd (ts : List Turn) : (setTurns ts s).cmd = s.cmd := rfl
@[simp] theorem setTurns_turns (ts : List Turn) : (setTurns ts s).turns = ts := rfl
@[simp] theorem setTurns_irqAge (ts : List Turn) : (setTurns ts s).irqAge = s.irqAge := rfl
@[simp] theorem setTurns_cfg (ts : List Turn) : (setTurns ts s).cfg = s.cfg := rfl

/-! ### `REPROGRAM`, the hardware reset, the return from the handler -/

@[simp] theorem withPeriod_period (t : Timer) (p : Nat) : (t.withPeriod p).period = some p := rfl
@[simp] theorem withPeriod_cnt (t : Timer) (p : Nat) : (t.withPeriod p).cnt = 0 := rfl
@[simp] theorem withPeriod_uevEn (t : Timer) (p : Nat) : (t.withPeriod p).uevEn = true := rfl
@[simp] theorem withPeriod_run (t : Timer) (p : Nat) : (t.withPeriod p).run = t.run := rfl
@[simp] theorem withPeriod_ie (t : Timer) (p : Nat) : (t.withPeriod p).ie = t.ie := rfl
@[simp] theorem withPeriod_pend (t : Timer) (p : Nat) : (t.withPeriod p).pend = t.pend := rfl
@[simp] theorem returnFromInterrupt_eq : returnFromInterrupt s = s := rfl
@[simp] theorem hardwareReset_ld : (hardwareReset s).ld = State.reset.ld := rfl
@[simp] theorem hardwareReset_tmr : (hardwareReset s).tmr = State.reset.tmr := rfl
@[simp] theorem hardwareReset_de : (hardwareReset s).de = State.reset.de := rfl
@[simp] theorem hardwareReset_td : (hardwareReset s).td = State.reset.td := rfl
@[simp] theorem hardwareReset_fg : (hardwareReset s).fg = State.reset.fg := rfl
@[simp] theorem hardwareReset_resp : (hardwareReset s).resp = State.reset.resp := rfl
@[simp] theorem hardwareReset_nowUs : (hardwareReset s).nowUs = State.reset.nowUs := rfl
@[simp] theorem hardwareReset_extLow : (hardwareReset s).extLow = s.extLow := rfl
@[simp] theorem hardwareReset_cmd : (hardwareReset s).cmd = s.cmd := rfl
@[simp] theorem hardwareReset_turns : (hardwareReset s).turns = s.turns := rfl
@[simp] theorem hardwareReset_irqAge : (hardwareReset s).irqAge = State.reset.irqAge := rfl
@[simp] theorem hardwareReset_cfg : (hardwareReset s).cfg = s.cfg := rfl

/-! ### `EXPIRY` -/

@[simp] theorem expiry_ld : (expiry s).ld = s.ld := by unfold expiry; split <;> rfl
@[simp] theorem expiry_de : (expiry s).de = s.de := by unfold expiry; split <;> rfl
@[simp] theorem expiry_td : (expiry s).td = s.td := by unfold expiry; split <;> rfl
@[simp] theorem expiry_fg : (expiry s).fg = s.fg := by unfold expiry; split <;> rfl
@[simp] theorem expiry_resp : (expiry s).resp = s.resp := by unfold expiry; split <;> rfl
@[simp] theorem expiry_nowUs : (expiry s).nowUs = s.nowUs := by unfold expiry; split <;> rfl
@[simp] theorem expiry_extLow : (expiry s).extLow = s.extLow := by unfold expiry; split <;> rfl
@[simp] theorem expiry_cmd : (expiry s).cmd = s.cmd := by unfold expiry; split <;> rfl
@[simp] theorem expiry_turns : (expiry s).turns = s.turns := by unfold expiry; split <;> rfl
@[simp] theorem expiry_irqAge : (expiry s).irqAge = s.irqAge := by unfold expiry; split <;> rfl
@[simp] theorem expiry_cfg : (expiry s).cfg = s.cfg := by unfold expiry; split <;> rfl
@[simp] theorem expiry_tmr : (expiry s).tmr = { s.tmr with pend := s.tmr.pend || s.tmr.uevEn } := by
  obtain ⟨ld, ⟨period, cnt, uevEn, run, ie, pend⟩, de, td, fg, resp, now, ext, cmd, turns, age, cfg⟩ := s
  cases uevEn <;> simp [expiry, setPend]

end Sys2Proof.Machine
end

