-- ==== Sys2Proof/Laws/Ops.lean ====
section
/-! SUPPORT. One lemma a shared operation: what it can do when it answers a next state. -/

namespace Sys2Proof.Machine

variable {s t : State}

theorem guarded_next {a : Option Refusal} {k : Host.Outcome State Fault Refusal} :
    guarded a k = .next t ↔ a = none ∧ k = .next t := by
  cases a <;> simp [guarded]

theorem andThen_next {o : Host.Outcome State Fault Refusal} {k : State → Host.Outcome State Fault Refusal} :
    andThen o k = .next t ↔ ∃ u, o = .next u ∧ k u = .next t := by
  cases o <;> simp [andThen]

theorem sampleOp_ok {l : Level} : sampleOp s = .ok l ↔ s.ld.dir = .input ∧ l = s.bus := by
  unfold sampleOp
  split <;> simp_all [eq_comm]

/-- With the pin in `input` the block pulls nothing: the line is what the others make it. -/
theorem bus_of_input (h : s.ld.dir = .input) : s.bus = if s.extLow then .low else .high := by
  simp [State.bus, State.padLow, h]

/-! ### Timer -/

theorem reprogram_of_ne_zero {p : Nat} (h : p ≠ 0) :
    reprogram p s = .next { s with tmr := s.tmr.withPeriod p } := by
  simp [reprogram, h]

theorem reprogram_next {p : Nat} :
    reprogram p s = .next t ↔ p ≠ 0 ∧ t = { s with tmr := s.tmr.withPeriod p } := by
  constructor
  · intro h
    by_cases hp : p = 0
    · simp [reprogram, hp] at h
    · rw [reprogram_of_ne_zero hp] at h
      cases h
      exact ⟨hp, rfl⟩
  · rintro ⟨hp, rfl⟩
    exact reprogram_of_ne_zero hp

/-- The counting of a TICK step: the timer stands, rolls over, or counts one up. -/
theorem countTick_next (h : countTick s = .next t) :
    (s.tmr.run = false ∧ t = s) ∨
      ∃ p, s.tmr.run = true ∧ s.tmr.period = some p ∧
        ((p ≤ s.tmr.cnt + 1 ∧ t = expiry (setCnt 0 s)) ∨
          (s.tmr.cnt + 1 < p ∧ t = setCnt (s.tmr.cnt + 1) s)) := by
  unfold countTick at h
  split at h
  · rename_i hr
    split at h
    · cases h
    · rename_i p hp
      refine .inr ⟨p, hr, hp, ?_⟩
      split at h
      · rename_i hc; cases h; exact .inl ⟨hc, rfl⟩
      · rename_i hc; cases h; exact .inr ⟨by omega, rfl⟩
  · rename_i hr
    cases h
    exact .inl ⟨by simpa using hr, rfl⟩

/-- A TICK step of a timer that may run answers a next state. -/
theorem tick_total (h : s.tmr.run = true → s.tmr.period ≠ none) : ∃ t, tick s = .next t := by
  unfold tick countTick
  split
  · rename_i hr
    split
    · rename_i hp; exact absurd hp (h hr)
    · split <;> exact ⟨_, rfl⟩
  · exact ⟨_, rfl⟩

/-! ### The interrupt -/

/-- The transition function, case by case (43 R122). -/
theorem smStep_ok {td td' : Descriptor} {a : Option PhaseAction} (h : smStep td = .ok (td', a)) :
    (td.phase = .done ∧ td' = td ∧ a = none) ∨
      (td.phase = .singleStep ∧ td.nextDelayUs = 0 ∧ td' = { td with phase := .done } ∧ a = none) ∨
      ((td.phase = .reset ∨ (td.phase = .singleStep ∧ td.nextDelayUs ≠ 0)) ∧
        td' = { td with phase := .singleStep, nextDelayUs := 0 } ∧
        a = some { level := td.nextLevel, period := td.nextDelayUs }) := by
  unfold smStep at h
  split at h <;> rename_i hp <;> try cases h
  · exact .inr (.inr ⟨.inl hp, rfl, rfl⟩)
  · split at h <;> rename_i hd <;> cases h
    · exact .inr (.inl ⟨hp, hd, rfl, rfl⟩)
    · exact .inr (.inr ⟨.inr ⟨hp, hd⟩, rfl, rfl⟩)
  · exact .inl ⟨hp, rfl, rfl⟩

/-- Everything the IRQ step can do (60 R157, 43 R122). -/
theorem takeInterrupt_next (h : takeInterrupt s = .next t) :
    (s.td.phase = .done ∧ t = settleIrq (irqPrologue s)) ∨
      (s.td.phase = .singleStep ∧ s.td.nextDelayUs = 0 ∧
        t = setTd { s.td with phase := .done } (settleIrq (irqPrologue s))) ∨
      ((s.td.phase = .reset ∨ s.td.phase = .singleStep) ∧ s.td.nextDelayUs ≠ 0 ∧
        t = setTd { s.td with phase := .singleStep, nextDelayUs := 0 }
          { driveOp s.td.nextLevel (settleIrq (irqPrologue s)) with
            tmr := (irqPrologue s).tmr.withPeriod s.td.nextDelayUs }) := by
  unfold takeInterrupt at h
  split at h
  · cases h
  · rename_i td a hsm
    obtain ⟨u, hu, ht⟩ := andThen_next.mp h
    cases ht
    rcases smStep_ok hsm with ⟨hp, rfl, rfl⟩ | ⟨hp, hd, rfl, rfl⟩ | ⟨hp, rfl, rfl⟩
    · cases hu; exact .inl ⟨hp, rfl⟩
    · cases hu; exact .inr (.inl ⟨hp, hd, rfl⟩)
    · obtain ⟨hd, rfl⟩ := reprogram_next.mp hu
      exact .inr (.inr ⟨hp.imp_right And.left, hd, rfl⟩)

/-! ### The Delay Engine's micro-operations -/

theorem waitStart_next {site : WaitSite} :
    waitStart site s = .next t ↔ waitDuration site s ≠ 0 ∧
      t = goto (.w1 site) { clearTick s with tmr := s.tmr.withPeriod (waitDuration site s) } := by
  unfold waitStart
  rw [andThen_next]
  constructor
  · rintro ⟨u, hu, ht⟩
    obtain ⟨hd, rfl⟩ := reprogram_next.mp hu
    cases ht
    exact ⟨hd, rfl⟩
  · rintro ⟨hd, rfl⟩
    exact ⟨_, reprogram_of_ne_zero hd, rfl⟩

/-- A legal period is not 0 and fits its cell. -/
theorem legalPeriod_iff {p : Params} {u : Nat} : p.legalPeriod u = true ↔ u ≠ 0 ∧ p.fits u = true := by
  simp [Params.legalPeriod]

/-- Every wait but that of `WAIT_US`, and that one if its operand is, is a legal period (92 D2). -/
theorem waitDuration_legal {site : WaitSite} (hl : s.cfg.literalsFit = true)
    (h : site = .waitUs → s.cfg.legalPeriod s.fg.imm = true) : s.cfg.legalPeriod (waitDuration site s) = true := by
  simp only [Params.literalsFit, Bool.and_eq_true] at hl
  cases site
  · exact h rfl
  · exact hl.2
  · exact hl.1.1.1
  · exact hl.1.1.2
  · exact hl.1.2

/-! ### ARM -/

theorem admitArm_none {ph : Phase} {per nd : Nat} {nlvl : Level} (h : admitArm ph per nd nlvl s = none) :
    s.td.active = false ∧ per ≠ 0 ∧
      ((ph = .reset ∧ nd ≠ 0 ∧ nlvl = .high) ∨ ph = .singleStep) := by
  unfold admitArm at h
  split at h
  · cases h
  · rename_i ha
    refine ⟨by simpa using ha, ?_⟩
    split at h
    · cases h
    · split at h
      · cases h
      · rename_i hph hper
        refine ⟨hper, ?_⟩
        cases ph <;> simp [admitArmPhase] at hph <;> simp_all
        cases nlvl <;> simp_all

theorem microA0_next {ph : Phase} {per nd : Nat} {nlvl : Level} :
    microA0 ph per nd nlvl s = .next t ↔ per ≠ 0 ∧
      t = { s with
        td := { phase := ph, nextDelayUs := nd, nextLevel := nlvl }
        tmr :=
          { period := some per, cnt := 0, uevEn := true, run := true, ie := true, pend := false }
        fg := { s.fg with op := none } } := by
  unfold microA0
  rw [andThen_next]
  constructor
  · rintro ⟨u, hu, ht⟩
    obtain ⟨hd, rfl⟩ := reprogram_next.mp hu
    cases ht
    exact ⟨hd, rfl⟩
  · rintro ⟨hd, rfl⟩
    exact ⟨_, reprogram_of_ne_zero hd, rfl⟩

end Sys2Proof.Machine
end

