-- ==== Sys2Proof/Laws/PerInstr.lean ====
section
/-! SUPPORT. Statements about every command as syntax, one lemma a constructor. -/

namespace Sys2Proof.Laws.MatchesRow

/-- The encoding of a command matches its row of the opcode map, whatever the width of its counts: `OP` in place, every
reserved bit 0 (30_encoding R55, R58, R63). -/
def Statement (i : Instr) : Prop := ∀ p : Params, encode p i &&& i.opcode.mask p = i.opcode.pattern p

variable {p : Params}

/-- An operand field that lies inside the bits its format gives to operands drops out under the mask. -/
theorem operand_and_mask {len : Nat} (op : Opcode) (b : BitVec len) (lo : Nat)
    (h : ∀ i < len, lo + i < p.cmdBits → (op.format.operandBits p).getLsbD (lo + i) = true) :
    (placeField b lo : CmdWord p) &&& op.mask p = 0 := placeField_and_not b lo _ h

theorem formatB (op : Opcode) (b : BitVec 1) (h : op.format = .b) : encodeB p op b &&& op.mask p = op.pattern p := by
  have hb : (placeField b p.lowAt : CmdWord p) &&& op.mask p = 0 := operand_and_mask op b _ fun i hi hw => by
    rw [h, Format.operandBits, getLsbD_placeField_allOnes]
    simp [hw]
    omega
  rw [encodeB, BitVec.and_or_distrib_right, hb, pattern_and_mask]
  simp

theorem formatI (op : Opcode) (imm : Nat) (h : op.format = .i) : encodeI p op imm &&& op.mask p = op.pattern p := by
  have hb : (placeCount imm p.lowAt : CmdWord p) &&& op.mask p = 0 := operand_and_mask op _ _ fun i hi hw => by
    rw [h, Format.operandBits, getLsbD_placeField_allOnes]
    simp [hw, hi]
  rw [encodeI, BitVec.and_or_distrib_right, hb, pattern_and_mask]
  simp

theorem formatN (op : Opcode) : encodeN p op &&& op.mask p = op.pattern p := pattern_and_mask op

theorem waitUs (imm : Nat) : Statement (.waitUs imm) := fun _ => formatI .waitUs imm rfl
theorem waitMs (imm : Nat) : Statement (.waitMs imm) := fun _ => formatI .waitMs imm rfl
theorem drive (level : Level) : Statement (.drive level) := fun _ => formatB .drive level.code rfl
theorem setdir (dir : Direction) : Statement (.setdir dir) := fun _ => formatB .setdir dir.code rfl
theorem sample : Statement .sample := fun _ => formatN .sample
theorem reset : Statement .reset := fun _ => formatN .reset

theorem arm (ph : Phase) (per nd : Nat) (nlvl : Level) : Statement (.arm ph per nd nlvl) := by
  intro p
  have field {len : Nat} (b : BitVec len) (lo : Nat)
      (h : (len ≤ 1 ∧ lo = p.nlvlAt) ∨ (len ≤ 3 ∧ lo = p.phAt) ∨ (len ≤ p.timerBits ∧ lo = p.perAt) ∨
        (len ≤ p.timerBits ∧ lo = p.lowAt)) :
      (placeField b lo : CmdWord p) &&& Opcode.arm.mask p = 0 :=
    operand_and_mask .arm b lo fun i hi hw => by
      simp only [Opcode.format, Format.operandBits, BitVec.getLsbD_or, getLsbD_placeField_allOnes, Bool.or_eq_true,
        Bool.and_eq_true, decide_eq_true_eq]
      omega
  show encodeA p .arm nlvl.code ph.code per nd &&& Opcode.arm.mask p = Opcode.arm.pattern p
  simp only [encodeA, placeCount, BitVec.and_or_distrib_right, pattern_and_mask]
  rw [field nlvl.code p.nlvlAt (by omega), field ph.code p.phAt (by omega),
    field (BitVec.ofNat p.timerBits per) p.perAt (by omega), field (BitVec.ofNat p.timerBits nd) p.lowAt (by omega)]
  simp

theorem poll : Statement .poll := fun _ => formatN .poll
theorem waitdone : Statement .waitdone := fun _ => formatN .waitdone
theorem tsetp (imm : Nat) : Statement (.tsetp imm) := fun _ => formatI .tsetp imm rfl
theorem tstart : Statement .tstart := fun _ => formatN .tstart
theorem tien : Statement .tien := fun _ => formatN .tien
theorem tclrp : Statement .tclrp := fun _ => formatN .tclrp
theorem tqp : Statement .tqp := fun _ => formatN .tqp

end Sys2Proof.Laws.MatchesRow
end

