-- ==== Sys2Proof/Laws/Step.lean ====
section
/-! SUPPORT. What a step can do, said once: who acts, and in which state. -/

namespace Sys2Proof.Machine

variable {s t : State}

theorem setTurns_self : setTurns s.turns s = s := rfl

/-- The foreground accepts a word only when idle and awake (10_state R26). -/
theorem fgTurn_accept {w : Nat} :
    fgTurn s = .accept w ↔
      s.fg.op = none ∧ s.cmd = some w ∧ s.fg.sleeping = false ∧ s.fg.stall = 0 := by
  unfold fgTurn
  split
  · rename_i h
    simp only [Bool.or_eq_true, decide_eq_true_eq] at h
    constructor
    · intro hh; cases hh
    · rintro ⟨-, -, h1, h2⟩; simp [h1, h2] at h
  · rename_i h
    simp only [Bool.or_eq_true, decide_eq_true_eq, not_or, Bool.not_eq_true, ne_eq, not_not] at h
    cases hop : s.fg.op with
    | none => cases hc : s.cmd <;> simp [h]
    | some op => simp; split <;> simp

theorem fgTurn_micro :
    fgTurn s = .micro ↔
      s.fg.op ≠ none ∧ s.fg.sleeping = false ∧ s.fg.stall = 0 ∧ s.fg.yielded = false := by
  unfold fgTurn
  split
  · rename_i h
    simp only [Bool.or_eq_true, decide_eq_true_eq] at h
    constructor
    · intro hh; cases hh
    · rintro ⟨-, h1, h2, -⟩; simp [h1, h2] at h
  · rename_i h
    simp only [Bool.or_eq_true, decide_eq_true_eq, not_or, Bool.not_eq_true, ne_eq, not_not] at h
    cases hop : s.fg.op with
    | none => cases hc : s.cmd <;> simp
    | some op => simp [h]

/-- What the block's own step does: the handler, an accepted command, a micro-operation, or a microsecond; a
microsecond passes over a requested interrupt only while it is younger than `IRQ_LAT_US` (60 R155). -/
inductive OwnMove (s : State) : Host.Outcome State Fault Refusal → Prop where
  | irq (h : s.irq = true) : OwnMove s (takeInterrupt s)
  | refuse (w : Nat) (h : fgTurn s = .accept w) (e : DecodeError) (hd : decode s.cfg (BitVec.ofNat _ w) = .error e) :
      OwnMove s (.refused (refusalOf e))
  | accept (w : Nat) (h : fgTurn s = .accept w) (i : Instr) (hd : decode s.cfg (BitVec.ofNat _ w) = .ok i) :
      OwnMove s (exec i (takeCmd s))
  | micro (h : fgTurn s = .micro) : OwnMove s (microStep s)
  | time (h : fgTurn s = .blocked) (hq : s.irq = true → s.irqAge < s.cfg.irqLatUs) : OwnMove s (tick s)

theorem ownStep_move (hold : Bool) (s : State) : OwnMove s (ownStep hold s) := by
  unfold ownStep
  split
  · rename_i h
    exact .irq (by simpa using (Bool.and_eq_true _ _ ▸ h).1)
  · rename_i hq
    unfold fgOrTick
    split
    · rename_i h
      refine .time h fun hi => ?_
      simp only [hi, State.irqDue, Bool.true_and, Bool.or_eq_true, decide_eq_true_eq, not_or] at hq
      omega
    · rename_i w h
      unfold acceptWord
      split
      · rename_i e hd; exact .refuse w h e hd
      · rename_i i hd; exact .accept w h i hd
    · rename_i h
      exact .micro h

/-- What a step does, by the turn it takes (00_scope R6). -/
inductive Move (s : State) : Host.Outcome State Fault Refusal → Prop where
  | ext (b : Bool) (h : s.turn = .ext b) : Move s (.next (setExt b s.onTurn))
  | wake (h : s.turn = .wake) : Move s (.next (Machine.wake s.onTurn))
  | cmd (w : Nat) (h : s.turn = .cmd w) : Move s (.next (presentCmd w s.onTurn))
  | rst (h : s.turn = .rst) : Move s (.next (hardwareReset s.onTurn))
  | own {o : Host.Outcome State Fault Refusal} (h : s.turn = .go ∨ s.turn = .hold) (m : OwnMove s.onTurn o) : Move s o

/-- Every step is one of these moves. -/
theorem step_move (s : State) : Move s (step s) := by
  unfold step machineStep
  split
  · rename_i h
    refine .own (.inl (by simp [State.turn, h])) ?_
    have : s.onTurn = s := by
      have := setTurns_self (s := s)
      rw [h] at this
      simpa [State.onTurn, h] using this
    rw [this]
    exact ownStep_move false s
  · rename_i u us h
    have hu : s.turn = u := by simp [State.turn, h]
    have hs : setTurns us s = s.onTurn := by simp [State.onTurn, h]
    rw [hs]
    cases u with
    | ext b => exact .ext b hu
    | wake => exact .wake hu
    | cmd w => exact .cmd w hu
    | rst => exact .rst hu
    | go => exact .own (.inl hu) (ownStep_move false _)
    | hold => exact .own (.inr hu) (ownStep_move true _)

end Sys2Proof.Machine
end

