-- ==== Sys2Proof/Laws/Run.lean ====
section
/-! SUPPORT. Runs: how steps add up, and how the timer counts while the foreground has nothing to do. -/

namespace Sys2Proof.Machine

variable {s t : State}

theorem steps_add (m n : Nat) (s : State) : steps (m + n) s = andThen (steps m s) (steps n) := by
  induction m generalizing s with
  | zero => simp [steps, andThen]
  | succ m ih =>
    rw [Nat.succ_add]
    simp only [steps]
    cases step s <;> simp [andThen, ih]

theorem steps_add_of_next {m n : Nat} (h : steps m s = .next t) : steps (m + n) s = steps n t := by
  rw [steps_add, h]
  rfl

/-- With the script at its end, no interrupt requested and the foreground blocked, a microsecond passes. -/
theorem step_of_blocked (h : quiet s) (hb : fgTurn s = .blocked) : step s = tick s := by
  obtain ⟨ht, hq⟩ := h
  simp [step, machineStep, ht, takeTurn, ownStep, hq, fgOrTick, hb]

/-- With the script at its end and no interrupt requested, the foreground's micro-operation is the step. -/
theorem step_of_micro (h : quiet s) (hm : fgTurn s = .micro) : step s = microStep s := by
  obtain ⟨ht, hq⟩ := h
  simp [step, machineStep, ht, takeTurn, ownStep, hq, fgOrTick, hm]

/-- With the script at its end, a requested interrupt is the step. -/
theorem step_of_irq (ht : s.turns = []) (hq : s.irq = true) : step s = takeInterrupt s := by
  simp [step, machineStep, ht, takeTurn, ownStep, hq]

/-- The state after `k` microseconds of a sleeping foreground, the period not over. -/
def counted (k : Nat) (s : State) : State :=
  { s with
    nowUs := s.nowUs + k
    tmr := { s.tmr with cnt := s.tmr.cnt + k }
    irqAge := 0
    fg := { s.fg with stall := s.fg.stall - k, yielded := false } }

/-- A running timer counts through a sleeping foreground up to the end of its period. -/
theorem steps_count {p : Nat} (ht : s.turns = []) (hsl : s.fg.sleeping = true) (hrun : s.tmr.run = true)
    (hp : s.tmr.period = some p) (hpd : s.tmr.pend = false) :
    ∀ k, 0 < k → s.tmr.cnt + k < p → steps k s = .next (counted k s) := by
  intro k
  induction k generalizing s with
  | zero => intro h; exact absurd h (by omega)
  | succ k ih =>
    intro _ hk
    have hq : s.irq = false := by simp [State.irq, hpd]
    have hb : fgTurn s = .blocked := by simp [fgTurn, hsl]
    have h1 : step s = .next (counted 1 s) := by
      rw [step_of_blocked ⟨ht, hq⟩ hb]
      have : ¬ p ≤ s.tmr.cnt + 1 := by omega
      simp [tick, countTick, hrun, hp, this]
      simp [counted, setCnt, passMicrosecond, hq]
    simp only [steps, h1, andThen]
    by_cases hk0 : k = 0
    · subst hk0; rfl
    · rw [ih (s := counted 1 s) ht hsl hrun hp hpd (by omega) (by simp only [counted]; omega)]
      simp only [counted]
      congr 2 <;> try omega
      · congr 1; omega
      · congr 1; omega

end Sys2Proof.Machine
end

