-- ==== Sys2Proof/Tests/Slice0.lean ====
section
/-! SUPPORT. Small tests against the spec's own words and vectors, and a witness for every hypothesis of a statement. -/

namespace Sys2Proof.Tests

open Sys2Proof.Machine

/-! ### Helpers -/

/-- `BOOT` of 95: hardware reset, then `init()`, at the instant `start()` completes. -/
def boot : State :=
  { State.reset with
    ld := { dir := .output, dlatch := .high }
    tmr := { period := some 1000, cnt := 0, uevEn := true, run := true, ie := true, pend := false } }

/-- `BOOT` with the descriptor active. -/
def active (ph : Phase) (nd : Nat) : State := { boot with td := { phase := ph, nextDelayUs := nd, nextLevel := .high } }

/-- `s` with the pin in `input`. -/
def inInput (s : State) : State := { s with ld := { s.ld with dir := .input } }

/-- `s` in the middle of command `op`. -/
def atLabel (op : Opcode) (l : Label) (s : State) : State := { s with fg := { s.fg with op := some op, step := l } }

/-- `s` with the elapsed-tick flag set. -/
def ticked (s : State) : State := { s with de := { tick := true } }

/-- `s` with an expiry pending. -/
def pending (s : State) : State := { s with tmr := { s.tmr with pend := true } }

/-- An expiry pending for `age` of at most 2 microseconds, `poll()` presented, the script putting the interrupt off. -/
def overdue (age : Nat) : State :=
  { pending boot with
    turns := [.hold], irqAge := age, cmd := some 0x410000000000, cfg := { boot.cfg with irqLatUs := 2 } }

/-- A next state that satisfies `p`. -/
def okWith (o : Host.Outcome State Fault Refusal) (p : State → Bool) : Bool :=
  match o with
  | .next s => p s
  | .fault _ => false
  | .refused _ => false

/-- Refused with the reason `r`. -/
def refusedWith (o : Host.Outcome State Fault Refusal) (r : Refusal) : Bool :=
  match o with
  | .next _ => false
  | .fault _ => false
  | .refused q => decide (q = r)

/-- The next state, where there is one. -/
def stateOf (o : Host.Outcome State Fault Refusal) : State :=
  match o with
  | .next s => s
  | .fault _ => State.reset
  | .refused _ => State.reset

/-- A decided next state is a next state. -/
theorem next_of_okWith {o : Host.Outcome State Fault Refusal} {p : State → Bool} (h : okWith o p = true) :
    ∃ t, o = .next t ∧ p t = true := by
  cases o with
  | next t => exact ⟨t, rfl, h⟩
  | fault f => simp [okWith] at h
  | refused r => simp [okWith] at h

/-! ### Well-formedness: one ill-formed term for each check (30_encoding R64, 43 R121) -/

theorem test_wf_wait_zero : (Instr.waitUs 0).wf = false := by decide
theorem test_wf_wait_max : (Instr.waitUs 65535).wf = true := by decide
theorem test_wf_wait_ms_zero : (Instr.waitMs 0).wf = true := by decide
theorem test_wf_tsetp_zero : (Instr.tsetp 0).wf = false := by decide
theorem test_wf_arm_code6 : (Instr.arm .code6 480 120 .high).wf = false := by decide
theorem test_wf_arm_code7 : (Instr.arm .code7 480 120 .high).wf = false := by decide
theorem test_wf_arm_write_zero : (Instr.arm .writeZero 480 120 .high).wf = false := by decide
theorem test_wf_arm_write_one : (Instr.arm .writeOne 480 120 .high).wf = false := by decide
theorem test_wf_arm_read : (Instr.arm .read 480 120 .high).wf = false := by decide
theorem test_wf_arm_done : (Instr.arm .done 120 0 .high).wf = false := by decide
theorem test_wf_arm_reset_no_delay : (Instr.arm .reset 480 0 .high).wf = false := by decide
theorem test_wf_arm_reset_low : (Instr.arm .reset 480 120 .low).wf = false := by decide
theorem test_wf_arm_reset_no_period : (Instr.arm .reset 0 120 .high).wf = false := by decide
theorem test_wf_arm_step_no_period : (Instr.arm .singleStep 0 0 .high).wf = false := by decide
theorem test_wf_arm_step_any : (Instr.arm .singleStep 65535 65535 .low).wf = true := by decide

/-! ### Decoding: every constructor's word from 30_encoding R67 and 95 TV9 -/

theorem test_decode_wait : decodeTableWord 48 0x1000000001E0 = some (.waitUs 480) := by decide
theorem test_decode_wait_ms : decodeTableWord 48 0x110000000002 = some (.waitMs 2) := by decide
theorem test_decode_drive_low : decodeTableWord 48 0x200000000000 = some (.drive .low) := by decide
theorem test_decode_drive_high : decodeTableWord 48 0x200000000001 = some (.drive .high) := by decide
theorem test_decode_set_input : decodeTableWord 48 0x210000000000 = some (.setdir .input) := by decide
theorem test_decode_set_output : decodeTableWord 48 0x210000000001 = some (.setdir .output) := by decide
theorem test_decode_sample : decodeTableWord 48 0x220000000000 = some .sample := by decide
theorem test_decode_reset : decodeTableWord 48 0x300000000000 = some .reset := by decide
theorem test_decode_arm_reset :
    decodeTableWord 48 0x401001E00078 = some (.arm .reset 480 120 .high) := by decide
theorem test_decode_arm_step :
    decodeTableWord 48 0x400400320046 = some (.arm .singleStep 50 70 .low) := by decide
theorem test_decode_arm_code7 :
    decodeTableWord 48 0x401701E00078 = some (.arm .code7 480 120 .high) := by decide
theorem test_decode_poll : decodeTableWord 48 0x410000000000 = some .poll := by decide
theorem test_decode_wait_done : decodeTableWord 48 0x420000000000 = some .waitdone := by decide
theorem test_decode_set_period : decodeTableWord 48 0x5000000003E8 = some (.tsetp 1000) := by decide
theorem test_decode_start : decodeTableWord 48 0x510000000000 = some .tstart := by decide
theorem test_decode_enable : decodeTableWord 48 0x520000000000 = some .tien := by decide
theorem test_decode_clear : decodeTableWord 48 0x530000000000 = some .tclrp := by decide
theorem test_decode_query : decodeTableWord 48 0x540000000000 = some .tqp := by decide

theorem test_encode_arm : (encode Config.defaults (.arm .reset 480 120 .high)).toNat = 0x401001E00078 := by decide
theorem test_encode_arm_step : (encode Config.defaults (.arm .singleStep 120 0 .high)).toNat = 0x401400780000 := by decide
theorem test_encode_wait_max : (encode Config.defaults (.waitUs 65535)).toNat = 0x10000000FFFF := by decide

theorem test_unknown_opcodes :
    ([0x000000000000#48, 0xFFFFFFFFFFFF#48, 0x120000000000#48, 0x230000000000#48, 0x310000000000#48,
        0x430000000000#48, 0x550000000000#48].all fun w => decide (decode Config.defaults w = .error .unknownOpcode)) = true := by
  decide

theorem test_reserved_bits :
    ([0x300000000001#48, 0x410000000100#48, 0x110001000000#48, 0x210000000003#48, 0x100000010005#48,
        0x200000000002#48, 0x220000000001#48, 0x401801E00078#48, 0x403001E00078#48].all fun w =>
          decide (decode Config.defaults w = .error .reservedBit)) = true := by
  decide

/-! ### Text (30_encoding R67) and pseudo-commands (R68) -/

theorem test_text_arm :
    (Instr.arm .reset 480 120 .high).text = some (chars "arm(Reset, 480, 120, high)") := by decide
theorem test_text_wait_ms : (Instr.waitMs 2).text = some (chars "wait_ms(2)") := by decide
theorem test_read_comment :
    readCommand Config.defaults (chars "set_direction(output) ; the line stays released") = some (.setdir .output) := by decide
theorem test_read_too_large : readCommand Config.defaults (chars "wait(65536)") = none := by decide
theorem test_assemble :
    assemble Config.defaults [chars "; boot", chars "set_period(1000)", chars "start()"] =
      some [0x5000000003E8#48, 0x510000000000#48] := by rfl
/-- The word a host's act presents. -/
def wordOfAct : HostAct → Option Nat
  | .issue i => some (encode Config.defaults i).toNat
  | .pollWhile _ => none
  | .letPass _ => none

theorem test_init_sequence :
    initSequence.map wordOfAct = [some 0x210000000001, some 0x5000000003E8, some 0x520000000000, some 0x510000000000] := by
  decide

/-! ### `TIMER_BITS` (30_encoding R58, R63; 93 V9) -/

/-- The masks of 30_encoding R63 with `TIMER_BITS` = 16, format by format. -/
theorem test_masks :
    (Format.mask Config.defaults .n).toNat = 0xFFFFFFFFFFFF ∧ (Format.mask Config.defaults .b).toNat = 0xFFFFFFFFFFFE ∧
      (Format.mask Config.defaults .i).toNat = 0xFFFFFFFF0000 ∧ (Format.mask Config.defaults .a).toNat = 0xFFE800000000 := by
  decide

/-- The match column of 30_encoding R63, first and last row. -/
theorem test_patterns :
    (Opcode.pattern Config.defaults .waitUs).toNat = 0x100000000000 ∧ (Opcode.pattern Config.defaults .tqp).toNat = 0x540000000000 := by
  decide

/-- A block with a 32-bit timer: its word has 80 bits, and a wait of 65536 can be encoded. -/
def wide : Params := { Config.defaults with timerBits := 32 }

theorem test_wide_wait : decode wide 0x10000000000000010000#80 = .ok (.waitUs 65536) := by decide
theorem test_wide_arm :
    decode wide 0x4010000001E000000078#80 = .ok (.arm .reset 480 120 .high) := by decide
theorem test_narrow_wait_cut : (Instr.waitUs 65536).fits Config.defaults = false := by decide
theorem test_narrow_wait_max : (Instr.waitUs 65535).fits Config.defaults = true := by decide
theorem test_narrow_wait_ms : (Instr.waitMs 65536).fits Config.defaults = false := by decide
theorem test_narrow_tsetp : (Instr.tsetp 65536).fits Config.defaults = false := by decide
theorem test_narrow_arm_period : (Instr.arm .reset 65536 120 .high).fits Config.defaults = false := by decide
theorem test_narrow_arm_delay : (Instr.arm .reset 480 65536 .high).fits Config.defaults = false := by decide
theorem test_defaults_fit : Config.defaults.literalsFit = true ∧ Config.defaults.specDurations = true := by decide

/-- Nine bits do not hold 1000 (92 D2 "holds every literal"). -/
theorem test_nine_bits_too_few : ({ Config.defaults with timerBits := 9 } : Params).literalsFit = false := by decide

/-! ### Commands, one step each (95 TV4 to TV8) -/

/-- V20: `wait(5)` with the old count at 999. -/
theorem test_wait_restarts_period :
    okWith (exec (.waitUs 5) (ticked { boot with tmr := { boot.tmr with cnt := 999 } })) (fun t =>
      decide (t.tmr.period = some 5) && decide (t.tmr.cnt = 0) && !t.de.tick) = true := by decide

/-- V34: `W0` does not clear the pending flag. -/
theorem test_wait_keeps_pending : okWith (exec (.waitUs 5) (pending boot)) (fun t => t.tmr.pend) = true := by decide

/-- V26: refused while a sequence is active. -/
theorem test_wait_refused_active : refusedWith (exec (.waitUs 10) (active .reset 120)) .timerInUse = true := by decide

/-- V28: `wait_ms(0)` touches neither the flag nor the timer. -/
theorem test_wait_ms_zero :
    okWith (steps 1 (stateOf (exec (.waitMs 0) boot))) (fun t =>
      decide (t.fg.op = none) && decide (t.tmr = boot.tmr) && decide (t.de = boot.de)) = true := by decide

/-- V40, V45: the latch is written in either direction. -/
theorem test_drive_low :
    okWith (exec (.drive .low) boot) (fun t => t.padLow && decide (t.bus = .low)) = true := by decide
theorem test_drive_in_input :
    okWith (exec (.drive .low) (inInput boot)) (fun t =>
      decide (t.ld.dlatch = .low) && !t.padLow && decide (t.bus = .high)) = true := by decide

/-- V43, V44: the latch survives a switch to `input` and back. -/
theorem test_setdir_back :
    okWith (exec (.setdir .output) (inInput (stateOf (exec (.drive .low) boot)))) (fun t => t.padLow) = true := by decide

/-- V46, V49, V48. -/
theorem test_sample_low :
    okWith (exec .sample { inInput boot with extLow := true }) (fun t => decide (t.resp = 0#3)) = true := by decide
theorem test_sample_output_refused : refusedWith (exec .sample boot) .sampleWhileOutput = true := by decide

/-- TV6: `reset()` straight after the boot without `set_direction(output)`. -/
theorem test_reset_needs_output : refusedWith (exec .reset (inInput boot)) .resetNeedsOutput = true := by decide
theorem test_reset_drives_low : okWith (exec .reset boot) (fun t => t.padLow) = true := by decide

/-- V70, V79. -/
theorem test_arm_reset :
    okWith (exec (.arm .reset 480 120 .high) (pending State.reset)) (fun t =>
      decide (t.tmr.period = some 480) && t.tmr.run && t.tmr.ie && !t.tmr.pend &&
        decide (t.td = { phase := .reset, nextDelayUs := 120, nextLevel := .high })) = true := by decide
theorem test_arm_active_refused :
    refusedWith (exec (.arm .code6 0 0 .low) (active .singleStep 0)) .sequenceActive = true := by decide

/-- V80 to V85. -/
theorem test_arm_done_refused : refusedWith (exec (.arm .done 0 0 .high) boot) .badArm = true := by decide
theorem test_arm_reserved_refused :
    refusedWith (exec (.arm .writeZero 480 120 .high) boot) .reservedPhase = true := by decide
theorem test_arm_code_refused :
    refusedWith (exec (.arm .code6 480 120 .high) boot) .noSuchPhase = true := by decide
theorem test_arm_zero_refused :
    refusedWith (exec (.arm .reset 0 0 .high) boot) .zeroPeriod = true := by decide
theorem test_arm_low_refused : refusedWith (exec (.arm .reset 480 120 .low) boot) .badArm = true := by decide

/-- V87: `poll()` answers 4 in `SingleStep`, 5 in `Done`. -/
theorem test_poll_step : okWith (exec .poll (active .singleStep 0)) (fun t => decide (t.resp = 4#3)) = true := by decide
theorem test_poll_done : okWith (exec .poll boot) (fun t => decide (t.resp = 5#3)) = true := by decide

/-- V88, V89. -/
theorem test_wait_done_awake :
    okWith (exec .waitdone (active .reset 120)) (fun t => !t.fg.sleeping && decide (t.fg.op = some .waitdone)) = true := by
  decide
theorem test_wait_done_at_once : okWith (exec .waitdone boot) (fun t => decide (t.fg.op = none)) = true := by decide

/-- V100, V108. -/
theorem test_set_period :
    okWith (exec (.tsetp 1000) State.reset) (fun t => decide (t.tmr.period = some 1000) && !t.tmr.run) = true := by
  decide
theorem test_set_period_refused : refusedWith (exec (.tsetp 10) (active .singleStep 0)) .timerInUse = true := by decide

/-- V101, V102. -/
theorem test_start_refused : refusedWith (exec .tstart State.reset) .periodUnwritten = true := by decide
theorem test_start : okWith (exec .tstart (stateOf (exec (.tsetp 9) State.reset))) (fun t => t.tmr.run) = true := by decide

/-- V103 to V106. -/
theorem test_enable : okWith (exec .tien State.reset) (fun t => t.tmr.ie) = true := by decide
theorem test_clear_keeps_tick : okWith (exec .tclrp (pending boot)) (fun t => !t.tmr.pend && !t.de.tick) = true := by decide
theorem test_query_keeps_pending :
    okWith (exec .tqp (pending boot)) (fun t => t.tmr.pend && decide (t.resp = 1#3)) = true := by decide

/-! ### TICK, IRQ and the order of steps (95 TV3, TV7) -/

/-- V11: the counter of a period of 65535 never holds 65535. -/
theorem test_tick_top :
    okWith (tick { boot with tmr := { boot.tmr with period := some 65535, cnt := 65534 } }) (fun t =>
      decide (t.tmr.cnt = 0) && t.tmr.pend) = true := by decide

/-- V6: a period of 1 expires at every TICK step. -/
theorem test_tick_period_one :
    okWith (tick { boot with tmr := { boot.tmr with period := some 1 } }) (fun t =>
      decide (t.tmr.cnt = 0) && t.tmr.pend) = true := by decide

/-- V10: a running timer with its period unwritten. -/
theorem test_tick_unwritten :
    refusedWith (tick { boot with tmr := { boot.tmr with period := none } }) .periodUnwritten = true := by decide

/-- V72: the first expiry releases the line. -/
theorem test_irq_releases :
    okWith (takeInterrupt { active .reset 120 with ld := { dir := .output, dlatch := .low } }) (fun t =>
      decide (t.ld.dlatch = .high) && decide (t.tmr.period = some 120) && t.de.tick &&
        decide (t.td = { phase := .singleStep, nextDelayUs := 0, nextLevel := .high })) = true := by decide

/-- V91: a phase no step writes. -/
theorem test_irq_reserved : refusedWith (takeInterrupt (active .writeOne 1)) .reservedPhase = true := by decide

/-- V106: enabling the interrupt with an expiry pending makes the IRQ step the next. -/
theorem test_irq_follows_enable :
    okWith (step (stateOf (exec .tien (pending { boot with tmr := { boot.tmr with ie := false } })))) (fun t =>
      t.de.tick && !t.tmr.pend) = true := by decide

/-- 60 R155: with `IRQ_LAT_US` = 0 the IRQ step can not be put off; with 2 it can. -/
theorem test_hold_needs_latency :
    okWith (step { pending boot with turns := [.hold] }) (fun t => !t.tmr.pend) = true := by decide
theorem test_hold_with_latency :
    okWith (step { pending boot with turns := [.hold], cfg := { boot.cfg with irqLatUs := 2 } }) (fun t =>
      t.tmr.pend && decide (t.nowUs = 1) && decide (t.irqAge = 1)) = true := by decide

/-- 00_scope R7: an interrupt that is due goes before an enabled foreground action, one that is not due may come after. -/
theorem test_due_before_foreground :
    okWith (step (overdue 2)) (fun t => !t.tmr.pend && decide (t.cmd = some 0x410000000000)) = true := by decide
theorem test_not_due_after_foreground :
    okWith (step (overdue 1)) (fun t => t.tmr.pend && decide (t.cmd = none) && decide (t.resp = 5#3)) = true := by decide

/-- P4: a command word runs as the first step after hardware reset. -/
theorem test_first_instruction :
    okWith (step (State.reset.withFetchWord 48 0x401001E00078)) (fun t => decide (t.td.phase = .reset)) = true := by decide

/-- 70 R180: hardware reset in the middle of `RESET`. -/
theorem test_hardware_reset :
    okWith (step { stateOf (exec .reset boot) with turns := [.rst] }) (fun t =>
      decide (t.fg.op = none) && !t.padLow && decide (t.tmr.period = none) && decide (t.td.phase = .done)) = true := by decide

/-! ### Witnesses: states that meet the hypotheses of each statement, clause by clause -/

theorem witness_DecodeOfEncode :
    ∃ (p : Params) (i : Instr), i.fits p = true ∧ p.timerBits = 32 := ⟨wide, .arm .reset (2 ^ 32 - 1) 0 .low, by decide⟩

theorem witness_EncodeOfDecode : ∃ (p : Params) (w : CmdWord p) (i : Instr), decode p w = .ok i :=
  ⟨Config.defaults, 0x401001E00078#48, .arm .reset 480 120 .high, by decide⟩

theorem witness_RowsDisjoint :
    ∃ (p : Params) (w : CmdWord p) (a b : Opcode), w &&& a.mask p = a.pattern p ∧ w &&& b.mask p = b.pattern p :=
  ⟨Config.defaults, 0x10000000FFFF#48, .waitUs, .waitUs, by decide, by decide⟩

theorem witness_TextReadsBack :
    ∃ (p : Params) (i : Instr) (line : List Char), i.fits p = true ∧ i.text = some line :=
  ⟨Config.defaults, .waitUs 65535, chars "wait(65535)", by decide, by decide⟩

theorem witness_StepRunsDecodedCommand :
    ∃ (s : State) (w : Nat) (i : Instr),
      s.irq = false ∧ fgTurn s.onTurn = .accept w ∧ decode s.cfg (BitVec.ofNat _ w) = .ok i ∧ (s.turn = .go ∨ s.turn = .hold) :=
  ⟨{ boot with cmd := some 0x10000000FFFF, turns := [.hold, .go] }, 0x10000000FFFF, .waitUs 65535,
    by decide, by decide, by decide, .inr (by decide)⟩

theorem witness_StepRunsDecodedCommand_go :
    ∃ (s : State) (w : Nat) (i : Instr),
      s.irq = false ∧ fgTurn s.onTurn = .accept w ∧ decode s.cfg (BitVec.ofNat _ w) = .ok i ∧ (s.turn = .go ∨ s.turn = .hold) :=
  ⟨State.reset.withFetchWord 48 0x220000000000, 0x220000000000, .sample, by decide, by decide, by decide,
    .inl (by decide)⟩

theorem witness_IllegalWordsRefused_opcode :
    ∃ (s : State) (n : Nat) (w : CmdWord s.cfg), quiet s ∧ fgTurn s = .accept n ∧ w = BitVec.ofNat _ n ∧
      ∀ op : Opcode, bitField w s.cfg.opAt 8 ≠ op.code :=
  ⟨{ boot with cmd := some 0x120000000000 }, 0x120000000000, 0x120000000000#48, by decide, by decide, rfl, by
    intro op; cases op <;> decide⟩

theorem witness_IllegalWordsRefused_bit :
    ∃ (s : State) (n : Nat) (w : CmdWord s.cfg) (op : Opcode), quiet s ∧ fgTurn s = .accept n ∧ w = BitVec.ofNat _ n ∧
      bitField w s.cfg.opAt 8 = op.code ∧ w &&& op.mask s.cfg ≠ op.pattern s.cfg :=
  ⟨{ boot with cmd := some 0x300000000001 }, 0x300000000001, 0x300000000001#48, .reset, by decide, by decide, rfl,
    by decide, by decide⟩

theorem witness_IllFormedCommandsRefused : ∃ i : Instr, i.wf = false := ⟨.arm .reset 480 120 .low, by decide⟩

theorem witness_LineLevels :
    (∃ s : State, s.ld.dir = .output ∧ s.ld.dlatch = .low) ∧ (∃ s : State, s.ld.dir = .output ∧ s.ld.dlatch = .high) ∧
      ∃ s : State, s.ld.dir = .input :=
  ⟨⟨stateOf (exec (.drive .low) boot), by decide⟩, ⟨boot, by decide⟩, ⟨State.reset, by decide⟩⟩

theorem witness_ResultsInResp :
    (∃ s : State, s.ld.dir = .input) ∧ (∃ s : State, s.ld.dir = .output) ∧ ∃ s : State, s.fg.step = .b9 :=
  ⟨⟨State.reset, by decide⟩, ⟨boot, by decide⟩, ⟨atLabel .reset .b9 boot, by decide⟩⟩

theorem witness_WaitUsAdmission :
    (∃ imm : Nat, imm = 0) ∧ (∃ (imm : Nat) (s : State), imm ≠ 0 ∧ s.td.phase ≠ .done) ∧
      ∃ (imm : Nat) (s : State), imm ≠ 0 ∧ s.td.phase = .done :=
  ⟨⟨0, rfl⟩, ⟨1, active .singleStep 0, by decide⟩, ⟨65535, boot, by decide⟩⟩

theorem witness_WaitMsAdmission : (∃ s : State, s.td.phase ≠ .done) ∧ ∃ s : State, s.td.phase = .done :=
  ⟨⟨active .reset 1, by decide⟩, ⟨boot, by decide⟩⟩

/-- A wait of `WAIT_MS` with `c` repetitions left. -/
def repeating (c : Nat) (l : Label) : State := setRepeat c (atLabel .waitMs l boot)

theorem witness_WaitMsRepeats :
    (∃ s : State, s.cfg.literalsFit = true ∧ quiet s ∧ fgTurn s = .micro ∧ s.fg.step = .m1 ∧ s.fg.cnt = 0) ∧
      (∃ s : State, s.cfg.literalsFit = true ∧ quiet s ∧ fgTurn s = .micro ∧ s.fg.step = .m1 ∧ s.fg.cnt ≠ 0) ∧
      ∃ s : State, s.cfg.literalsFit = true ∧ quiet s ∧ fgTurn s = .micro ∧ s.fg.step = .w0 .waitMs :=
  ⟨⟨repeating 0 .m1, by decide⟩, ⟨repeating 1 .m1, by decide⟩, ⟨repeating 0 (.w0 .waitMs), by decide⟩⟩

/-- The command a wait belongs to. -/
def siteOp : WaitSite → Opcode
  | .waitUs => .waitUs
  | .waitMs => .waitMs
  | .resetLow => .reset
  | .settle => .reset
  | .remainder => .reset

theorem witness_WaitChecksFlag_clear :
    ∃ (site : WaitSite) (s : State), quiet s ∧ fgTurn s = .micro ∧ s.fg.step = .w1 site ∧ s.de.tick = false :=
  ⟨.settle, atLabel .reset (.w1 .settle) boot, by decide⟩

theorem witness_WaitChecksFlag_set :
    ∀ site : WaitSite, ∃ s : State, quiet s ∧ fgTurn s = .micro ∧ s.fg.step = .w1 site ∧ s.de.tick = true := by
  intro site
  refine ⟨ticked (atLabel (siteOp site) (.w1 site) boot), ?_⟩
  cases site <;> decide

/-- The state `W0` of `wait(1)` leaves. -/
def waiting : State := stateOf (exec (.waitUs 1) boot)

theorem witness_WaitNeverEarly :
    ∃ (d : Nat) (s s₁ : State) (n : Nat) (t : State), s.tmr.pend = false ∧ s.noRst = true ∧
      exec (.waitUs d) s = .next s₁ ∧ steps n s₁ = .next t ∧ t.fg.op ≠ some .waitUs :=
  ⟨1, boot, waiting, 4, stateOf (steps 4 waiting), by decide, by decide, rfl, rfl, by decide⟩

theorem witness_WaitTimingContract :
    ∃ (d : Nat) (s s₁ : State), idle s ∧ s.tmr.run = true ∧ s.tmr.ie = true ∧ s.tmr.pend = false ∧ s.noRst = true ∧
      s.cfg.irqLatUs = 3 ∧ exec (.waitUs d) s = .next s₁ :=
  ⟨65535, { boot with turns := [.hold, .wake, .cmd 0], cfg := { boot.cfg with irqLatUs := 3 } }, _, by decide,
    by decide, by decide, by decide, by decide, rfl, rfl⟩

theorem witness_WaitEndsExactly :
    ∃ (d : Nat) (s s₁ : State), idle s ∧ s.tmr.run = true ∧ s.tmr.ie = true ∧ s.tmr.pend = false ∧
      s.cfg.irqLatUs = 0 ∧ s.noRst = true ∧ exec (.waitUs d) s = .next s₁ :=
  ⟨65535, { boot with turns := [.wake, .ext true, .cmd 0] }, _, by decide, by decide, by decide, by decide,
    by decide, by decide, rfl⟩

theorem witness_WaitMsEndsExactly :
    ∀ m : Nat, ∃ s s₁ : State, s.cfg.literalsFit = true ∧ s.cfg.specDurations = true ∧ idle s ∧ s.turns = [] ∧ s.tmr.run = true ∧ s.tmr.ie = true ∧ s.tmr.pend = false ∧
      exec (.waitMs m) s = .next s₁ :=
  fun _ => ⟨boot, _, rfl, rfl, by decide, rfl, rfl, rfl, rfl, rfl⟩

theorem witness_TickClearUntilExpiry :
    ∃ (d : Nat) (s s₁ : State) (n : Nat) (t : State), s.tmr.pend = false ∧ s.noRst = true ∧
      exec (.waitUs d) s = .next s₁ ∧ steps n s₁ = .next t ∧ t.nowUs < s.nowUs + d :=
  ⟨1, ticked boot, waiting, 1, stateOf (steps 1 waiting), by decide, by decide, rfl, rfl, by decide⟩

theorem witness_WaitHangsWithoutInterrupt :
    (∃ (d : Nat) (s s₁ : State), s.noRst = true ∧ s.tmr.ie = false ∧ exec (.waitUs d) s = .next s₁) ∧
      ∃ (d : Nat) (s s₁ : State), s.noRst = true ∧ s.tmr.run = false ∧ s.tmr.pend = false ∧
        exec (.waitUs d) s = .next s₁ :=
  ⟨⟨5, State.reset, _, by decide, rfl, rfl⟩, ⟨5, State.reset, _, by decide, rfl, rfl, rfl⟩⟩

theorem witness_ResetAdmission :
    (∃ s : State, s.td.phase ≠ .done) ∧ (∃ s : State, s.td.phase = .done ∧ s.ld.dir = .input) ∧
      ∃ s : State, s.td.phase = .done ∧ s.ld.dir = .output :=
  ⟨⟨active .reset 1, by decide⟩, ⟨State.reset, by decide⟩, ⟨boot, by decide⟩⟩

theorem witness_ResetMicroOps :
    (∀ l ∈ [Label.w0 .resetLow, .b2, .w0 .settle, .b4, .b6, .b7, .w0 .remainder],
        ∃ s : State, s.cfg.literalsFit = true ∧ quiet s ∧ fgTurn s = .micro ∧ s.fg.step = l) ∧
      ∃ s : State, s.cfg.literalsFit = true ∧ quiet s ∧ fgTurn s = .micro ∧ s.fg.step = .b5 ∧ s.ld.dir = .input :=
  ⟨fun l _ => ⟨atLabel .reset l boot, rfl, ⟨rfl, rfl⟩, rfl, rfl⟩, ⟨atLabel .reset .b5 (inInput boot), by decide⟩⟩

theorem witness_ResetEndsWithPresence :
    ∃ s s₁ : State, s.cfg.literalsFit = true ∧ s.cfg.specDurations = true ∧ idle s ∧ s.turns = [] ∧ s.tmr.run = true ∧
      s.tmr.ie = true ∧ s.tmr.pend = false ∧ exec .reset s = .next s₁ :=
  ⟨boot, _, rfl, rfl, by decide, rfl, rfl, rfl, rfl, rfl⟩

theorem witness_ResetLowPulse_low :
    ∃ (s s₁ : State) (n : Nat) (t : State), s.cfg.literalsFit = true ∧ idle s ∧ s.noCmd = true ∧ s.tmr.run = true ∧ s.tmr.ie = true ∧
      s.tmr.pend = false ∧ exec .reset s = .next s₁ ∧ steps n s₁ = .next t ∧ t.fg.op = some .reset ∧
      t.nowUs < s.nowUs + s.cfg.tResetLowUs :=
  ⟨boot, _, 0, _, rfl, by decide, by decide, rfl, rfl, rfl, rfl, rfl, rfl, by decide⟩

/-- `RESET` asleep in its first wait. -/
def asleepInReset : State := stateOf (steps 2 (stateOf (exec .reset boot)))

/-- `RESET` one microsecond after the release. -/
def afterRelease : State := stateOf (steps 7 (counted 479 asleepInReset))

theorem witness_ResetLowPulse_released :
    ∃ (s s₁ : State) (n : Nat) (t : State), s.cfg.literalsFit = true ∧ idle s ∧ s.noCmd = true ∧ s.tmr.run = true ∧ s.tmr.ie = true ∧
      s.tmr.pend = false ∧ exec .reset s = .next s₁ ∧ steps n s₁ = .next t ∧ t.fg.op = some .reset ∧
      s.nowUs + s.cfg.tResetLowUs + s.cfg.irqLatUs < t.nowUs := by
  refine ⟨boot, stateOf (exec .reset boot), 2 + (479 + 7), afterRelease, rfl, by decide, by decide, rfl, rfl, rfl, rfl,
    ?_, by decide, by decide⟩
  have h2 : steps 2 (stateOf (exec .reset boot)) = .next asleepInReset := rfl
  have h3 : steps 479 asleepInReset = .next (counted 479 asleepInReset) :=
    steps_count (p := 480) rfl rfl rfl rfl rfl 479 (by decide) (by decide)
  rw [steps_add_of_next h2, steps_add_of_next h3]
  rfl

theorem witness_ArmCompletes :
    ∃ (ph : Phase) (per nd : Nat) (nlvl : Level) (s : State),
      s.td.phase = .done ∧ (Instr.arm ph per nd nlvl).wf = true :=
  ⟨.singleStep, 1, 0, .low, State.reset, by decide⟩

theorem witness_WaitdonePolls : (∃ s : State, s.td.phase = .done) ∧ ∃ s : State, s.td.phase ≠ .done :=
  ⟨⟨boot, by decide⟩, ⟨active .singleStep 0, by decide⟩⟩

theorem witness_HandlerTransition :
    (∃ td : Descriptor, td.phase = .reset) ∧ (∃ td : Descriptor, td.phase = .singleStep ∧ td.nextDelayUs = 0) ∧
      (∃ td : Descriptor, td.phase = .singleStep ∧ td.nextDelayUs ≠ 0) ∧ (∃ td : Descriptor, td.phase = .done) ∧
      ∃ td : Descriptor, td.phase = .code7 :=
  ⟨⟨(active .reset 120).td, rfl⟩, ⟨(active .singleStep 0).td, by decide⟩, ⟨(active .singleStep 1).td, by decide⟩,
    ⟨boot.td, rfl⟩, ⟨(active .code7 0).td, rfl⟩⟩

theorem witness_TwoExpiriesReachDone :
    ∃ s t u v s₂ s₃ : State, s.td = { phase := .reset, nextDelayUs := 120, nextLevel := .high } ∧
      takeInterrupt s = .next t ∧ s₂.td = t.td ∧ takeInterrupt s₂ = .next u ∧ s₃.td = u.td ∧ takeInterrupt s₃ = .next v :=
  ⟨active .reset 120, _, _, _, stateOf (takeInterrupt (active .reset 120)),
    stateOf (takeInterrupt (stateOf (takeInterrupt (active .reset 120)))), rfl, rfl, rfl, rfl, rfl, rfl⟩

theorem witness_ArmedSequenceRuns :
    ∃ (per nd : Nat) (s s₁ : State), idle s ∧ s.turns = [] ∧ s.cmd = none ∧
      exec (.arm .reset per nd .high) s = .next s₁ :=
  ⟨1, 65535, boot, _, by decide, rfl, rfl, rfl⟩

theorem witness_WaitdoneEndsAtDone :
    ∃ (per nd : Nat) (s s₁ s₂ : State), idle s ∧ s.turns = [] ∧ exec (.arm .reset per nd .high) s = .next s₁ ∧
      exec .waitdone s₁ = .next s₂ :=
  ⟨1, 1, boot, stateOf (exec (.arm .reset 1 1 .high) boot), _, by decide, rfl, rfl, rfl⟩

theorem witness_SetPeriodResult :
    (∃ imm : Nat, imm = 0) ∧ (∃ (imm : Nat) (s : State), imm ≠ 0 ∧ s.td.phase ≠ .done) ∧
      ∃ (imm : Nat) (s : State), imm ≠ 0 ∧ s.td.phase = .done :=
  ⟨⟨0, rfl⟩, ⟨65535, active .reset 1, by decide⟩, ⟨1, State.reset, by decide⟩⟩

theorem witness_TimerControlBits : (∃ s : State, s.tmr.period = none) ∧ ∃ s : State, s.tmr.period ≠ none :=
  ⟨⟨State.reset, rfl⟩, ⟨boot, by decide⟩⟩

theorem witness_ReprogramStartsFreshPeriod :
    (∃ p : Nat, p = 0) ∧ ∃ (p : Nat) (s : State) (k : Nat), p ≠ 0 ∧ s.tmr.run = true ∧ k < p :=
  ⟨⟨0, rfl⟩, ⟨1, boot, 0, by decide⟩⟩

theorem witness_TickCounts :
    (∃ s : State, s.tmr.run = true ∧ s.tmr.period = none) ∧
      (∃ s : State, ¬(s.tmr.run = true ∧ s.tmr.period = none) ∧ s.tmr.run = false) ∧
      (∃ (s : State) (p : Nat), ¬(s.tmr.run = true ∧ s.tmr.period = none) ∧ s.tmr.run = true ∧ s.tmr.period = some p ∧
        p ≤ s.tmr.cnt + 1) ∧
      ∃ (s : State) (p : Nat), ¬(s.tmr.run = true ∧ s.tmr.period = none) ∧ s.tmr.run = true ∧ s.tmr.period = some p ∧
        s.tmr.cnt + 1 < p :=
  ⟨⟨{ boot with tmr := { boot.tmr with period := none } }, by decide⟩, ⟨State.reset, by decide⟩,
    ⟨{ boot with tmr := { boot.tmr with cnt := 999 } }, 1000, by decide⟩,
    ⟨{ boot with tmr := { boot.tmr with cnt := 998 } }, 1000, by decide⟩⟩

theorem witness_IrqStepResult :
    (∃ s : State, s.td.phase = .done) ∧ (∃ s : State, s.td.phase = .singleStep ∧ s.td.nextDelayUs = 0) ∧
      (∃ s : State, s.td.phase = .reset ∧ s.td.nextDelayUs ≠ 0) ∧
      (∃ s : State, s.td.phase = .singleStep ∧ s.td.nextDelayUs ≠ 0) ∧
      ∃ s : State, phaseEntered s.td.phase = false :=
  ⟨⟨boot, by decide⟩, ⟨active .singleStep 0, by decide⟩, ⟨active .reset 1, by decide⟩,
    ⟨active .singleStep 1, by decide⟩, ⟨active .writeZero 0, by decide⟩⟩

theorem witness_HandlerFrame : ∃ s t : State, takeInterrupt s = .next t := ⟨active .reset 120, _, rfl⟩

theorem witness_RequestedIrqGoesFirst :
    (∃ s : State, s.irq = true ∧ s.turn = .go) ∧ ∃ s : State, s.irq = true ∧ s.turn = .hold ∧ s.cfg.irqLatUs ≤ s.irqAge :=
  ⟨⟨pending boot, by decide⟩, ⟨overdue 2, by decide⟩⟩

theorem witness_TimePassesOnlyWhenBlocked : ∃ s t : State, step s = .next t ∧ s.turn ≠ .rst := ⟨boot, _, rfl, by decide⟩

theorem witness_WakeStepResult : ∃ (s : State) (ts : List Turn), s.turns = .wake :: ts :=
  ⟨{ boot with turns := [.wake, .go] }, [.go], rfl⟩

theorem witness_HardwareResetValues : ∃ r s : State, s.turn = .rst ∧ step s = .next r :=
  ⟨_, { pending (active .reset 1) with turns := [.rst] }, by decide, rfl⟩

/-- `BOOT` has the invariant. -/
theorem boot_inv : BlockInv boot := by decide

theorem witness_HardwareResetValues_no_command :
    ∃ r : State, (r = State.reset ∨ ∃ s : State, s.turn = .rst ∧ step s = .next r) ∧ r.cmd = none :=
  ⟨State.reset, .inl rfl, rfl⟩

theorem witness_InertUntilCommand : ∃ s : State, s.noCmd = true :=
  ⟨{ pending (active .reset 1) with turns := [.wake, .ext true, .rst, .hold] }, by decide⟩

theorem witness_StepKeepsInv : ∃ s t : State, BlockInv s ∧ step s = .next t := ⟨boot, _, boot_inv, rfl⟩

theorem witness_OnlyAcceptedWordsRefused : ∃ (s : State) (r : Refusal), BlockInv s ∧ step s = .refused r :=
  ⟨{ boot with cmd := some 0 }, .unknownOpcode, by decide, rfl⟩

theorem witness_ParametersAndInputsKept : ∃ s t : State, step s = .next t ∧ ∀ b, s.turn ≠ .ext b :=
  ⟨boot, _, rfl, fun b => by simp [State.turn, boot, State.reset]⟩

theorem witness_TimerEnablesOnlyRise_kept :
    ∃ s t : State, step s = .next t ∧ s.turn ≠ .rst ∧ s.tmr.run = true ∧ s.tmr.ie = true :=
  ⟨boot, _, rfl, by decide, rfl, rfl⟩

theorem witness_TimerEnablesOnlyRise_run :
    ∃ s t : State, step s = .next t ∧ s.turn ≠ .rst ∧ s.tmr.run = false ∧ t.tmr.run = true :=
  have ⟨t, h, p⟩ := next_of_okWith (o := step (State.reset.withFetchWord 48 0x401001E00078))
    (p := fun t => t.tmr.run) (by decide)
  ⟨_, t, h, by decide, rfl, p⟩

theorem witness_TimerEnablesOnlyRise_ie :
    ∃ s t : State, step s = .next t ∧ s.turn ≠ .rst ∧ s.tmr.ie = false ∧ t.tmr.ie = true :=
  have ⟨t, h, p⟩ := next_of_okWith (o := step (State.reset.withFetchWord 48 0x520000000000))
    (p := fun t => t.tmr.ie) (by decide)
  ⟨_, t, h, by decide, rfl, p⟩

theorem witness_ActiveDescriptorOwnedByHandler :
    ∃ s t : State, step s = .next t ∧ s.turn ≠ .rst ∧ s.td.phase ≠ .done :=
  ⟨pending (active .reset 120), _, rfl, by decide, by decide⟩

theorem witness_FlagWriters_tick_set :
    ∃ s t : State, step s = .next t ∧ s.turn ≠ .rst ∧ s.de.tick = false ∧ t.de.tick = true :=
  ⟨pending boot, _, rfl, by decide, rfl, rfl⟩

theorem witness_FlagWriters_tick_cleared :
    ∃ s t : State, step s = .next t ∧ s.turn ≠ .rst ∧ s.de.tick = true ∧ t.de.tick = false :=
  have ⟨t, h, p⟩ := next_of_okWith (o := step (ticked (boot.withFetchWord 48 0x100000000001)))
    (p := fun t => !t.de.tick) (by decide)
  ⟨_, t, h, by decide, rfl, by simpa using p⟩

theorem witness_FlagWriters_pend_set :
    ∃ s t : State, step s = .next t ∧ s.turn ≠ .rst ∧ s.tmr.pend = false ∧ t.tmr.pend = true :=
  have ⟨t, h, p⟩ := next_of_okWith (o := step { boot with tmr := { boot.tmr with cnt := 999 } })
    (p := fun t => t.tmr.pend) (by decide)
  ⟨_, t, h, by decide, rfl, p⟩

theorem witness_CommandFrames : ∃ (i : Instr) (s t : State), exec i s = .next t := ⟨.poll, boot, _, rfl⟩

end Sys2Proof.Tests
end

section
/-! PROOF. What accepting a command, a micro-operation, the handler and a microsecond can do, and the statements of
00_scope that follow from it. -/

namespace Sys2Proof.Machine

variable {s t : State}

/-! ### The state a turn is taken in: the script has moved on, and nothing else -/

@[simp] theorem onTurn_ld (s : State) : s.onTurn.ld = s.ld := rfl
@[simp] theorem onTurn_tmr (s : State) : s.onTurn.tmr = s.tmr := rfl
@[simp] theorem onTurn_de (s : State) : s.onTurn.de = s.de := rfl
@[simp] theorem onTurn_td (s : State) : s.onTurn.td = s.td := rfl
@[simp] theorem onTurn_fg (s : State) : s.onTurn.fg = s.fg := rfl
@[simp] theorem onTurn_resp (s : State) : s.onTurn.resp = s.resp := rfl
@[simp] theorem onTurn_nowUs (s : State) : s.onTurn.nowUs = s.nowUs := rfl
@[simp] theorem onTurn_extLow (s : State) : s.onTurn.extLow = s.extLow := rfl
@[simp] theorem onTurn_cmd (s : State) : s.onTurn.cmd = s.cmd := rfl
@[simp] theorem onTurn_turns (s : State) : s.onTurn.turns = s.turns.tail := rfl
@[simp] theorem onTurn_irqAge (s : State) : s.onTurn.irqAge = s.irqAge := rfl
@[simp] theorem onTurn_cfg (s : State) : s.onTurn.cfg = s.cfg := rfl
@[simp] theorem onTurn_irq (s : State) : s.onTurn.irq = s.irq := rfl
@[simp] theorem onTurn_irqDue (s : State) : s.onTurn.irqDue = s.irqDue := rfl

/-- A step takes its turn in the state in which the script has moved on; past the end of the script it is `go`. -/
theorem step_eq_takeTurn (s : State) : step s = takeTurn s.turn s.onTurn := by
  unfold step machineStep
  split
  · rename_i h
    have hs : s.onTurn = s := by
      rw [State.onTurn, h, List.tail_nil, ← h, setTurns_self]
    rw [hs, State.turn, h]
    rfl
  · rename_i u us h
    rw [State.turn, State.onTurn, h]
    rfl

theorem ownStep_of_irq {hold : Bool} (hi : s.irq = true) (hd : hold = true → s.irqDue = true) :
    ownStep hold s = takeInterrupt s := by
  cases hold <;> simp_all [ownStep]

/-! ### Accepting a command -/

/-- The next state of an accepted command, and what admitted it: one constructor a command. -/
inductive Accepts (s : State) : Instr → State → Prop where
  | waitUs {imm : Nat} (hi : imm ≠ 0) (hp : s.td.phase = .done) :
      Accepts s (.waitUs imm)
        { s with
          de := { tick := false }
          tmr := s.tmr.withPeriod imm
          fg := { s.fg with op := some .waitUs, step := .w1 .waitUs, imm := imm } }
  | waitMs {imm : Nat} (hp : s.td.phase = .done) :
      Accepts s (.waitMs imm)
        { s with fg := { s.fg with op := some .waitMs, step := .m1, imm := imm, cnt := imm } }
  | drive {l : Level} : Accepts s (.drive l) (finish (driveOp l s))
  | setdir {d : Direction} : Accepts s (.setdir d) (finish (setdirOp d s))
  | sample (hd : s.ld.dir = .input) : Accepts s .sample (respond (respOfLevel s.bus) s)
  | reset (hp : s.td.phase = .done) (hd : s.ld.dir = .output) :
      Accepts s .reset
        { s with
          ld := { s.ld with dlatch := .low }
          fg := { s.fg with op := some .reset, step := .w0 .resetLow } }
  | arm {ph : Phase} {per nd : Nat} {nlvl : Level} (hp : s.td.phase = .done) (hper : per ≠ 0)
      (hph : (ph = .reset ∧ nd ≠ 0 ∧ nlvl = .high) ∨ ph = .singleStep) :
      Accepts s (.arm ph per nd nlvl)
        { s with
          td := { phase := ph, nextDelayUs := nd, nextLevel := nlvl }
          tmr := { period := some per, cnt := 0, uevEn := true, run := true, ie := true, pend := false }
          fg := { s.fg with op := none } }
  | poll : Accepts s .poll (respond s.td.phase.code s)
  | waitdone : Accepts s .waitdone (microQ0 (beginCommand .waitdone .q0 s))
  | tsetp {imm : Nat} (hi : imm ≠ 0) (hp : s.td.phase = .done) :
      Accepts s (.tsetp imm)
        { s with tmr := s.tmr.withPeriod imm, fg := { s.fg with op := none, imm := imm } }
  | tstart (hp : s.tmr.period ≠ none) : Accepts s .tstart (finish (startTimer s))
  | tien : Accepts s .tien (finish (enableIrq s))
  | tclrp : Accepts s .tclrp (finish (clearPend s))
  | tqp : Accepts s .tqp (respond (respOfFlag s.tmr.pend) s)

theorem active_eq_false {td : Descriptor} : td.active = false ↔ td.phase = .done := by
  simp [Descriptor.active]

/-- A check of an admission is passed when its condition fails and the rest of the admission is passed. -/
theorem check_eq_none {c : Prop} [Decidable c] {r : Refusal} {rest : Option Refusal} :
    (if c then some r else rest) = none ↔ ¬c ∧ rest = none := by
  split <;> simp_all

theorem admitWaitUs_eq_none {imm : Nat} : admitWaitUs imm s = none ↔ imm ≠ 0 ∧ s.td.phase = .done := by
  simp [admitWaitUs, check_eq_none, active_eq_false]

theorem admitWaitMs_eq_none : admitWaitMs s = none ↔ s.td.phase = .done := by
  simp [admitWaitMs, active_eq_false]

theorem admitReset_eq_none : admitReset s = none ↔ s.td.phase = .done ∧ s.ld.dir = .output := by
  simp only [admitReset, check_eq_none, Bool.not_eq_true, active_eq_false, ne_eq, not_not, and_true]

theorem admitTsetp_eq_none {imm : Nat} : admitTsetp imm s = none ↔ imm ≠ 0 ∧ s.td.phase = .done := by
  simp [admitTsetp, check_eq_none, active_eq_false]

theorem admitTstart_eq_none : admitTstart s = none ↔ s.tmr.period ≠ none := by
  simp [admitTstart]

theorem execWaitUs_next {imm : Nat} (h : execWaitUs imm s = .next t) : Accepts s (.waitUs imm) t := by
  obtain ⟨ha, hk⟩ := guarded_next.mp h
  obtain ⟨hi, hp⟩ := admitWaitUs_eq_none.mp ha
  obtain ⟨-, rfl⟩ := waitStart_next.mp hk
  exact .waitUs hi hp

theorem execTsetp_next {imm : Nat} (h : execTsetp imm s = .next t) : Accepts s (.tsetp imm) t := by
  obtain ⟨ha, hk⟩ := guarded_next.mp h
  obtain ⟨hi, hp⟩ := admitTsetp_eq_none.mp ha
  obtain ⟨u, hu, ht⟩ := andThen_next.mp hk
  obtain ⟨-, rfl⟩ := reprogram_next.mp hu
  cases ht
  exact .tsetp hi hp

theorem execArm_next {ph : Phase} {per nd : Nat} {nlvl : Level} (h : execArm ph per nd nlvl s = .next t) :
    Accepts s (.arm ph per nd nlvl) t := by
  obtain ⟨ha, hk⟩ := guarded_next.mp h
  obtain ⟨hp, hper, hph⟩ := admitArm_none ha
  obtain ⟨-, rfl⟩ := microA0_next.mp hk
  exact .arm (active_eq_false.mp hp) hper hph

theorem execSample_next (h : execSample s = .next t) : Accepts s .sample t := by
  unfold execSample at h
  split at h
  · cases h
  · rename_i l hl
    obtain ⟨hd, rfl⟩ := sampleOp_ok.mp hl
    cases h
    exact .sample hd

/-- Everything the accepting of a command can do. -/
theorem exec_next {i : Instr} (h : exec i s = .next t) : Accepts s i t := by
  cases i with
  | waitUs imm => exact execWaitUs_next h
  | waitMs imm =>
    obtain ⟨ha, hk⟩ := guarded_next.mp h
    cases hk
    exact .waitMs (admitWaitMs_eq_none.mp ha)
  | drive l => cases h; exact .drive
  | setdir d => cases h; exact .setdir
  | sample => exact execSample_next h
  | reset =>
    obtain ⟨ha, hk⟩ := guarded_next.mp h
    obtain ⟨hp, hd⟩ := admitReset_eq_none.mp ha
    cases hk
    exact .reset hp hd
  | arm ph per nd nlvl => exact execArm_next h
  | poll => cases h; exact .poll
  | waitdone => cases h; exact .waitdone
  | tsetp imm => exact execTsetp_next h
  | tstart =>
    obtain ⟨ha, hk⟩ := guarded_next.mp h
    cases hk
    exact .tstart (admitTstart_eq_none.mp ha)
  | tien => cases h; exact .tien
  | tclrp => cases h; exact .tclrp
  | tqp => cases h; exact .tqp

/-! ### What no own step of the block touches -/

/-- The parameters, the external pull, the script and the presented word are the same. -/
structure SameOutside (s t : State) : Prop where
  cfg : t.cfg = s.cfg
  extLow : t.extLow = s.extLow
  turns : t.turns = s.turns
  cmd : t.cmd = s.cmd

/-- The clock and the age of a waiting request are the same too: no microsecond passed, no interrupt was taken. -/
structure SameTime (s t : State) : Prop extends SameOutside s t where
  nowUs : t.nowUs = s.nowUs
  irqAge : t.irqAge = s.irqAge

theorem microQ0_sameTime (s : State) : SameTime s (microQ0 s) := by
  unfold microQ0
  split <;> exact ⟨⟨rfl, rfl, rfl, rfl⟩, rfl, rfl⟩

theorem waitCheck_sameTime (site : WaitSite) (s : State) : SameTime s (waitCheck site s) := by
  unfold waitCheck
  split
  · cases site <;> exact ⟨⟨rfl, rfl, rfl, rfl⟩, rfl, rfl⟩
  · exact ⟨⟨rfl, rfl, rfl, rfl⟩, rfl, rfl⟩

theorem microM1_sameTime (s : State) : SameTime s (microM1 s) := by
  unfold microM1
  split <;> exact ⟨⟨rfl, rfl, rfl, rfl⟩, rfl, rfl⟩

/-- Accepting a command is timeless, and beyond the taking of the word the ports are as they were. -/
theorem exec_sameTime {i : Instr} (h : exec i s = .next t) : SameTime s t := by
  cases exec_next h with
  | waitdone =>
    obtain ⟨⟨hc, he, ht, hw⟩, hn, ha⟩ := microQ0_sameTime (beginCommand .waitdone .q0 s)
    exact ⟨⟨hc, he, ht, hw⟩, hn, ha⟩
  | _ => exact ⟨⟨rfl, rfl, rfl, rfl⟩, rfl, rfl⟩

theorem microB5_next : microB5 s = .next t ↔ s.ld.dir = .input ∧ t = goto .b6 (setSampled s.bus s) := by
  unfold microB5 sampleOp
  by_cases hd : s.ld.dir = .input <;> simp [hd, eq_comm]

/-- A micro-operation is timeless and leaves the ports alone. -/
theorem microStep_sameTime (h : microStep s = .next t) : SameTime s t := by
  cases hst : s.fg.step <;> simp only [microStep, hst] at h
  case w0 site =>
    obtain ⟨-, rfl⟩ := waitStart_next.mp h
    exact ⟨⟨rfl, rfl, rfl, rfl⟩, rfl, rfl⟩
  case w1 site => cases h; exact waitCheck_sameTime site s
  case m1 => cases h; exact microM1_sameTime s
  case b5 =>
    obtain ⟨-, rfl⟩ := microB5_next.mp h
    exact ⟨⟨rfl, rfl, rfl, rfl⟩, rfl, rfl⟩
  case q0 => cases h; exact microQ0_sameTime s
  all_goals
    cases h
    exact ⟨⟨rfl, rfl, rfl, rfl⟩, rfl, rfl⟩

/-- The IRQ step is timeless and leaves the ports alone (60 R156). -/
theorem takeInterrupt_sameOutside (h : takeInterrupt s = .next t) : SameOutside s t ∧ t.nowUs = s.nowUs := by
  rcases takeInterrupt_next h with ⟨-, rfl⟩ | ⟨-, -, rfl⟩ | ⟨-, -, rfl⟩ <;> exact ⟨⟨rfl, rfl, rfl, rfl⟩, rfl⟩

/-- A TICK step moves the clock by one microsecond and leaves the ports alone. -/
theorem tick_sameOutside (h : tick s = .next t) : SameOutside s t ∧ t.nowUs = s.nowUs + 1 := by
  rcases countTick_next h with ⟨-, rfl⟩ | ⟨p, -, -, ⟨-, rfl⟩ | ⟨-, rfl⟩⟩
  · exact ⟨⟨rfl, rfl, rfl, rfl⟩, rfl⟩
  · exact ⟨⟨by simp, by simp, by simp, by simp⟩, by simp⟩
  · exact ⟨⟨rfl, rfl, rfl, rfl⟩, rfl⟩

/-- No own step of the block writes the parameters or `ext_low` (00_scope R5, 10_state R28). -/
theorem OwnMove.keeps_inputs {o : Host.Outcome State Fault Refusal} (m : OwnMove s o) (h : o = .next t) :
    t.cfg = s.cfg ∧ t.extLow = s.extLow := by
  cases m with
  | irq => exact ⟨(takeInterrupt_sameOutside h).1.cfg, (takeInterrupt_sameOutside h).1.extLow⟩
  | refuse => cases h
  | accept => exact ⟨(exec_sameTime h).cfg, (exec_sameTime h).extLow⟩
  | micro => exact ⟨(microStep_sameTime h).cfg, (microStep_sameTime h).extLow⟩
  | time => exact ⟨(tick_sameOutside h).1.cfg, (tick_sameOutside h).1.extLow⟩

/-- Only the TICK step of a blocked foreground with no interrupt due moves the clock (00_scope R7). -/
theorem OwnMove.nowUs {o : Host.Outcome State Fault Refusal} (m : OwnMove s o) (h : o = .next t) :
    t.nowUs = s.nowUs ∨
      (t.nowUs = s.nowUs + 1 ∧ fgTurn s = .blocked ∧ (s.irq = true → s.irqAge < s.cfg.irqLatUs)) := by
  cases m with
  | irq => exact .inl (takeInterrupt_sameOutside h).2
  | refuse => cases h
  | accept => exact .inl (exec_sameTime h).nowUs
  | micro => exact .inl (microStep_sameTime h).nowUs
  | time hb hq => exact .inr ⟨(tick_sameOutside h).2, hb, hq⟩

/-! ### What is never refused in a state with the invariant -/

theorem phaseEntered_iff {p : Phase} : phaseEntered p = true ↔ p = .reset ∨ p = .singleStep ∨ p = .done := by
  simp [phaseEntered, or_assoc]

theorem smStep_of_delay {td : Descriptor} (hp : td.phase = .reset ∨ td.phase = .singleStep)
    (hd : td.nextDelayUs ≠ 0) : smStep td = .ok td.act := by
  rcases hp with hp | hp <;> simp [smStep, hp, hd]

theorem smStep_of_last {td : Descriptor} (hp : td.phase = .singleStep) (hd : td.nextDelayUs = 0) :
    smStep td = .ok ({ td with phase := .done }, none) := by
  simp [smStep, hp, hd]

theorem smStep_of_done {td : Descriptor} (hp : td.phase = .done) : smStep td = .ok (td, none) := by
  simp [smStep, hp]

/-- The handler finds a phase it knows, and starts no period of 0 (43 R127). -/
theorem smStep_total (h : DescriptorInv s) :
    ∃ td a, smStep s.td = .ok (td, a) ∧ ∀ act ∈ a, act.period ≠ 0 := by
  obtain ⟨hph, hreset, -⟩ := h
  by_cases hd : s.td.nextDelayUs = 0
  · rcases phaseEntered_iff.mp hph with hp | hp | hp
    · exact absurd hd (hreset hp).1
    · exact ⟨_, _, smStep_of_last hp hd, nofun⟩
    · exact ⟨_, _, smStep_of_done hp, nofun⟩
  · rcases phaseEntered_iff.mp hph with hp | hp | hp
    · exact ⟨_, _, smStep_of_delay (.inl hp) hd, by rintro _ ⟨⟩; exact hd⟩
    · exact ⟨_, _, smStep_of_delay (.inr hp) hd, by rintro _ ⟨⟩; exact hd⟩
    · exact ⟨_, _, smStep_of_done hp, nofun⟩

theorem applyAction_total {a : Option PhaseAction} (h : ∀ act ∈ a, act.period ≠ 0) :
    ∃ t, applyAction a s = .next t := by
  cases a with
  | none => exact ⟨_, rfl⟩
  | some act => exact ⟨_, reprogram_of_ne_zero (h act rfl)⟩

theorem takeInterrupt_total (h : DescriptorInv s) : ∃ t, takeInterrupt s = .next t := by
  obtain ⟨td, a, hsm, hper⟩ := smStep_total h
  obtain ⟨u, hu⟩ := applyAction_total (s := settleIrq (irqPrologue s)) hper
  refine ⟨setTd td u, ?_⟩
  simp only [takeInterrupt, hsm, hu, andThen, returnFromInterrupt]

/-- The command a label belongs to (10_state R26). -/
def Label.owner : Label → Opcode
  | .w0 .waitUs | .w1 .waitUs => .waitUs
  | .m0 | .m1 | .w0 .waitMs | .w1 .waitMs => .waitMs
  | .q0 => .waitdone
  | _ => .reset

theorem op_of_labelOf {op : Opcode} {l : Label} (h : labelOf (some op) l = true) : op = l.owner := by
  cases op with
  | waitUs =>
    simp only [labelOf, List.contains_eq_mem, List.mem_cons, List.not_mem_nil, or_false, decide_eq_true_eq] at h
    rcases h with rfl | rfl <;> rfl
  | waitMs =>
    simp only [labelOf, List.contains_eq_mem, List.mem_cons, List.not_mem_nil, or_false, decide_eq_true_eq] at h
    rcases h with rfl | rfl | rfl | rfl <;> rfl
  | reset =>
    simp only [labelOf, List.contains_eq_mem, List.mem_cons, List.not_mem_nil, or_false, decide_eq_true_eq] at h
    rcases h with rfl | rfl | rfl | rfl | rfl | rfl | rfl | rfl | rfl | rfl | rfl | rfl | rfl <;> rfl
  | waitdone =>
    cases of_decide_eq_true h
    rfl
  | _ => cases h

/-- The command in execution is the one its label belongs to. -/
theorem op_eq_owner (hf : ForegroundInv s) (hop : s.fg.op ≠ none) : s.fg.op = some s.fg.step.owner := by
  obtain ⟨hlabel, -⟩ := hf
  cases hc : s.fg.op with
  | none => exact absurd hc hop
  | some op => rw [hc] at hlabel; rw [op_of_labelOf hlabel]

/-- A command in execution waits for a legal duration wherever it waits (40 R80). -/
theorem waitDuration_ne_zero {site : WaitSite} (hf : ForegroundInv s) (hw : WidthInv s) (hop : s.fg.op ≠ none)
    (hst : s.fg.step = .w0 site) : waitDuration site s ≠ 0 := by
  have howner := op_eq_owner hf hop
  obtain ⟨-, -, himm, -⟩ := hf
  obtain ⟨hlit, -, -, -, hfit, -⟩ := hw
  refine (legalPeriod_iff.mp (waitDuration_legal hlit ?_)).1
  rintro rfl
  rw [hst] at howner
  exact legalPeriod_iff.mpr ⟨himm howner, hfit⟩

/-- `B5` finds the pin in `input` (42 R110). -/
theorem dir_input_of_b5 (hf : ForegroundInv s) (hop : s.fg.op ≠ none) (hst : s.fg.step = .b5) :
    s.ld.dir = .input := by
  have howner := op_eq_owner hf hop
  obtain ⟨-, -, -, hdir, -⟩ := hf
  rw [hst] at howner
  exact (hdir howner).mpr (by rw [hst]; rfl)

/-- A command once accepted is never refused: only `W0` and `B5` could be. -/
theorem microStep_total (hf : ForegroundInv s) (hw : WidthInv s) (hop : s.fg.op ≠ none) :
    ∃ t, microStep s = .next t := by
  cases hst : s.fg.step <;> simp only [microStep, hst]
  case w0 site => exact ⟨_, waitStart_next.mpr ⟨waitDuration_ne_zero hf hw hop hst, rfl⟩⟩
  case b5 => exact ⟨_, microB5_next.mpr ⟨dir_input_of_b5 hf hop hst, rfl⟩⟩
  all_goals exact ⟨_, rfl⟩

/-- An own step that is refused is the accepting of a word. -/
theorem OwnMove.accept_of_refused {o : Host.Outcome State Fault Refusal} {r : Refusal} (m : OwnMove s o)
    (hinv : BlockInv s) (h : o = .refused r) : ∃ w, fgTurn s = .accept w := by
  obtain ⟨⟨-, hperiod, -⟩, hd, hf, -, hw⟩ := hinv
  cases m with
  | irq =>
    obtain ⟨t, ht⟩ := takeInterrupt_total hd
    cases ht.symm.trans h
  | refuse w hacc => exact ⟨w, hacc⟩
  | accept w hacc => exact ⟨w, hacc⟩
  | micro hm =>
    obtain ⟨t, ht⟩ := microStep_total hf hw (fgTurn_micro.mp hm).1
    cases ht.symm.trans h
  | time =>
    obtain ⟨t, ht⟩ := tick_total hperiod
    cases ht.symm.trans h

/-! ### The statements -/

/-- Settles O47: the invariant keeps the handler, the timer and the micro-operations from every refusal. -/
theorem onlyAcceptedWordsRefused : Obligations.OnlyAcceptedWordsRefused := by
  intro s r hinv h
  cases h ▸ step_move s with
  | own hturn m =>
    obtain ⟨w, hacc⟩ := m.accept_of_refused hinv rfl
    obtain ⟨hop, hcmd, hsleep, -⟩ := fgTurn_accept.mp hacc
    exact ⟨hturn, w, hcmd, hop, hsleep⟩

/-- Settles O41, by the moves of a step. -/
theorem timePassesOnlyWhenBlocked : Obligations.TimePassesOnlyWhenBlocked := by
  intro s t h hrst
  cases h ▸ step_move s with
  | ext | wake | cmd => exact .inl rfl
  | rst hturn => exact absurd hturn hrst
  | own hturn m => exact (m.nowUs rfl).imp_right fun ⟨hn, hb, hq⟩ => ⟨hn, hturn, hb, hq⟩

/-- Settles O48, by the moves of a step. -/
theorem parametersAndInputsKept : Obligations.ParametersAndInputsKept := by
  intro s t h
  cases h ▸ step_move s with
  | ext b hturn => exact ⟨rfl, fun hne => absurd hturn (hne b)⟩
  | wake | cmd | rst => exact ⟨rfl, fun _ => rfl⟩
  | own hturn m => exact (m.keeps_inputs rfl).imp_right fun he _ => he

/-- Settles O40: both turns of the block take a requested interrupt first, `hold` once it is due. -/
theorem requestedIrqGoesFirst : Obligations.RequestedIrqGoesFirst := by
  intro s hi hturn
  rw [step_eq_takeTurn]
  rcases hturn with hgo | ⟨hhold, hdue⟩
  · rw [hgo]
    exact ownStep_of_irq hi nofun
  · rw [hhold]
    exact ownStep_of_irq hi fun _ => decide_eq_true hdue

end Sys2Proof.Machine
end

section
/-! PROOF. What every step of the block keeps: the statements of 10_state. -/

namespace Sys2Proof.Machine

variable {s t : State}

/-! ### The line -/

theorem padLow_iff : s.padLow = true ↔ s.ld.dir = .output ∧ s.ld.dlatch = .low := by
  simp [State.padLow]

theorem padLow_eq_false_of_input (h : s.ld.dir = .input) : s.padLow = false := by
  simp [State.padLow, h]

theorem padLow_eq_false_of_high (h : s.ld.dlatch = .high) : s.padLow = false := by
  simp [State.padLow, h]

theorem bus_eq_low_iff : s.bus = .low ↔ s.padLow = true ∨ s.extLow = true := by
  cases hp : s.padLow <;> simp [State.bus, hp]

/-- A line the block does not pull is what the others make it (10_state R13). -/
theorem bus_of_not_padLow (h : s.padLow = false) : s.bus = if s.extLow then .low else .high := by
  simp [State.bus, h]

theorem execSample_admitted_iff : (∃ t, exec .sample s = .next t) ↔ s.ld.dir = .input := by
  constructor
  · rintro ⟨t, h⟩
    cases exec_next h with
    | sample hd => exact hd
  · intro hd
    exact ⟨respond (respOfLevel s.bus) s, by simp [exec, execSample, sampleOp, hd]⟩

/-! ### Micro-operations -/

/-- The next state of a micro-operation, by the label it is at and what it finds there (10_state R26). -/
inductive Performs (s : State) : State → Prop where
  | waitStart {site : WaitSite} (hst : s.fg.step = .w0 site) (hd : waitDuration site s ≠ 0) :
      Performs s (goto (.w1 site) { clearTick s with tmr := s.tmr.withPeriod (waitDuration site s) })
  | waitExit {site : WaitSite} (hst : s.fg.step = .w1 site) (ht : s.de.tick = true) : Performs s (waitExit site s)
  | waitSleep {site : WaitSite} (hst : s.fg.step = .w1 site) (ht : s.de.tick = false) :
      Performs s (goto (.w1 site) (sleep s))
  | m0 (hst : s.fg.step = .m0) : Performs s (goto .m1 (setRepeat s.fg.imm s))
  | repeatEnd (hst : s.fg.step = .m1) (hc : s.fg.cnt = 0) : Performs s (finish s)
  | repeatWait (hst : s.fg.step = .m1) (hc : s.fg.cnt ≠ 0) :
      Performs s (goto (.w0 .waitMs) (setRepeat (s.fg.cnt - 1) s))
  | b0 (hst : s.fg.step = .b0) : Performs s (microB0 s)
  | b2 (hst : s.fg.step = .b2) : Performs s (microB2 s)
  | b4 (hst : s.fg.step = .b4) : Performs s (microB4 s)
  | b5 (hst : s.fg.step = .b5) (hd : s.ld.dir = .input) : Performs s (goto .b6 (setSampled s.bus s))
  | b6 (hst : s.fg.step = .b6) : Performs s (microB6 s)
  | b7 (hst : s.fg.step = .b7) : Performs s (microB7 s)
  | b9 (hst : s.fg.step = .b9) : Performs s (microB9 s)
  | pollEnd (hst : s.fg.step = .q0) (hp : s.td.phase = .done) : Performs s (finish s)
  | pollAgain (hst : s.fg.step = .q0) (hp : s.td.phase ≠ .done) : Performs s (goto .q0 (yieldTurn s))

/-- Everything a micro-operation can do. -/
theorem microStep_next (h : microStep s = .next t) : Performs s t := by
  cases hst : s.fg.step <;> simp only [microStep, hst] at h
  case w0 site =>
    obtain ⟨hd, rfl⟩ := waitStart_next.mp h
    exact .waitStart hst hd
  case w1 site =>
    cases h
    unfold waitCheck
    split
    · rename_i ht; exact .waitExit hst ht
    · rename_i ht; exact .waitSleep hst (by simpa using ht)
  case m0 => cases h; exact .m0 hst
  case m1 =>
    cases h
    unfold microM1
    split
    · rename_i hc; exact .repeatEnd hst hc
    · rename_i hc; exact .repeatWait hst hc
  case b0 => cases h; exact .b0 hst
  case b2 => cases h; exact .b2 hst
  case b4 => cases h; exact .b4 hst
  case b5 =>
    obtain ⟨hd, rfl⟩ := microB5_next.mp h
    exact .b5 hst hd
  case b6 => cases h; exact .b6 hst
  case b7 => cases h; exact .b7 hst
  case b9 => cases h; exact .b9 hst
  case q0 =>
    cases h
    unfold microQ0
    split
    · rename_i hp; exact .pollEnd hst hp
    · rename_i hp; exact .pollAgain hst hp

theorem microQ0_performs (hst : s.fg.step = .q0) : Performs s (microQ0 s) :=
  microStep_next (by rw [microStep, hst])

/-- No micro-operation writes the descriptor (10_state R25). -/
theorem Performs.td (h : Performs s t) : t.td = s.td := by
  cases h with
  | @waitExit site => cases site <;> rfl
  | _ => rfl

/-- The timer is written by a `W0` alone (40 R81). -/
theorem Performs.tmr (h : Performs s t) :
    t.tmr = s.tmr ∨
      ∃ site, s.fg.step = .w0 site ∧ waitDuration site s ≠ 0 ∧ t.tmr = s.tmr.withPeriod (waitDuration site s) := by
  cases h with
  | waitStart hst hd => exact .inr ⟨_, hst, hd, rfl⟩
  | @waitExit site => cases site <;> exact .inl rfl
  | _ => exact .inl rfl

/-! ### The descriptor and the enables of the timer -/

/-- Only `ARM` writes the descriptor, and only one that is not active (10_state R25, 43 R121). -/
theorem Accepts.td {i : Instr} (h : Accepts s i t) : t.td = s.td ∨ s.td.phase = .done := by
  cases h with
  | arm hp => exact .inr hp
  | waitdone => exact .inl (microQ0_performs rfl).td
  | _ => exact .inl rfl

theorem microQ0_tmr (s : State) : (microQ0 s).tmr = s.tmr := by
  unfold microQ0
  split <;> rfl

/-- Only `TSTART` and `ARM` write `TMR.run`, and they set it (10_state R17). -/
theorem Accepts.run {i : Instr} (h : Accepts s i t) :
    t.tmr.run = s.tmr.run ∨ (t.tmr.run = true ∧ (i.opcode = .tstart ∨ i.opcode = .arm)) := by
  cases h with
  | arm => exact .inr ⟨rfl, .inr rfl⟩
  | tstart => exact .inr ⟨rfl, .inl rfl⟩
  | waitdone => exact .inl (by rw [microQ0_tmr]; rfl)
  | _ => exact .inl rfl

/-- Only `TIEN` and `ARM` write `TMR.ie`, and they set it (10_state R18). -/
theorem Accepts.ie {i : Instr} (h : Accepts s i t) :
    t.tmr.ie = s.tmr.ie ∨ (t.tmr.ie = true ∧ (i.opcode = .tien ∨ i.opcode = .arm)) := by
  cases h with
  | arm => exact .inr ⟨rfl, .inr rfl⟩
  | tien => exact .inr ⟨rfl, .inl rfl⟩
  | waitdone => exact .inl (by rw [microQ0_tmr]; rfl)
  | _ => exact .inl rfl

/-- `TMR.run` and `TMR.ie` are the same. -/
abbrev sameEnables (s t : State) : Prop := t.tmr.run = s.tmr.run ∧ t.tmr.ie = s.tmr.ie

theorem Performs.sameEnables (h : Performs s t) : sameEnables s t := by
  rcases h.tmr with htmr | ⟨site, -, -, htmr⟩ <;> rw [Machine.sameEnables, htmr] <;> exact ⟨rfl, rfl⟩

theorem takeInterrupt_sameEnables (h : takeInterrupt s = .next t) : sameEnables s t := by
  rcases takeInterrupt_next h with ⟨-, rfl⟩ | ⟨-, -, rfl⟩ | ⟨-, -, rfl⟩ <;> exact ⟨rfl, rfl⟩

/-- What the handler writes into the descriptor is `sm_step`'s (43 R122). -/
theorem takeInterrupt_td (h : takeInterrupt s = .next t) : ∃ a, smStep s.td = .ok (t.td, a) := by
  rcases takeInterrupt_next h with ⟨hp, rfl⟩ | ⟨hp, hd, rfl⟩ | ⟨hp, hd, rfl⟩
  · exact ⟨_, smStep_of_done hp⟩
  · exact ⟨_, smStep_of_last hp hd⟩
  · exact ⟨_, smStep_of_delay hp hd⟩

/-- What a microsecond leaves: the counter alone moves, and a stalled or polling foreground comes nearer its turn. -/
structure Microsecond (s t : State) : Prop where
  ld : t.ld = s.ld
  td : t.td = s.td
  cfg : t.cfg = s.cfg
  cmd : t.cmd = s.cmd
  fg : t.fg = { s.fg with stall := s.fg.stall - 1, yielded := false }
  irqAge : t.irqAge = if s.irq then s.irqAge + 1 else 0
  period : t.tmr.period = s.tmr.period
  uevEn : t.tmr.uevEn = s.tmr.uevEn
  enables : sameEnables s t
  cnt : t.tmr.cnt = s.tmr.cnt ∨ t.tmr.cnt = 0 ∨ ∃ p ∈ s.tmr.period, t.tmr.cnt < p

theorem tick_microsecond (h : tick s = .next t) : Microsecond s t := by
  rcases countTick_next h with ⟨-, rfl⟩ | ⟨p, -, hp, ⟨-, rfl⟩ | ⟨hc, rfl⟩⟩
  · exact ⟨rfl, rfl, rfl, rfl, rfl, rfl, rfl, rfl, ⟨rfl, rfl⟩, .inl rfl⟩
  · constructor <;> simp [sameEnables]
  · exact ⟨rfl, rfl, rfl, rfl, rfl, rfl, rfl, rfl, ⟨rfl, rfl⟩, .inr (.inr ⟨p, hp, hc⟩)⟩

/-- An own step that is no accepting of a command leaves the enables of the timer as they are. -/
theorem OwnMove.sameEnables_or_accepts {o : Host.Outcome State Fault Refusal} (m : OwnMove s o) (h : o = .next t) :
    sameEnables s t ∨
      ∃ w i, s.cmd = some w ∧ decode s.cfg (BitVec.ofNat _ w) = .ok i ∧ Accepts (takeCmd s) i t := by
  cases m with
  | irq => exact .inl (takeInterrupt_sameEnables h)
  | refuse => cases h
  | accept w hacc i hd => exact .inr ⟨w, i, (fgTurn_accept.mp hacc).2.1, hd, exec_next h⟩
  | micro => exact .inl (microStep_next h).sameEnables
  | time => exact .inl (tick_microsecond h).enables

/-- The same of every step but a hardware reset. -/
theorem step_sameEnables_or_accepts (h : step s = .next t) (hrst : s.turn ≠ .rst) :
    sameEnables s t ∨
      ∃ w i, s.cmd = some w ∧ decode s.cfg (BitVec.ofNat _ w) = .ok i ∧ Accepts (takeCmd s.onTurn) i t := by
  cases h ▸ step_move s with
  | ext | wake | cmd => exact .inl ⟨rfl, rfl⟩
  | rst hturn => exact absurd hturn hrst
  | own hturn m => exact m.sameEnables_or_accepts rfl

/-- An active descriptor is written by the handler alone (10_state R25). -/
theorem OwnMove.td {o : Host.Outcome State Fault Refusal} (m : OwnMove s o) (h : o = .next t)
    (hactive : s.td.phase ≠ .done) : t.td = s.td ∨ (s.irq = true ∧ ∃ a, smStep s.td = .ok (t.td, a)) := by
  cases m with
  | irq hi => exact .inr ⟨hi, takeInterrupt_td h⟩
  | refuse => cases h
  | accept => exact .inl ((exec_next h).td.resolve_right hactive)
  | micro => exact .inl (microStep_next h).td
  | time => exact .inl (tick_microsecond h).td

/-! ### The invariant: timer, descriptor, widths -/

theorem fits_zero (p : Params) : p.fits 0 = true := decide_eq_true (Nat.two_pow_pos _)

theorem fits_of_le {p : Params} {u v : Nat} (h : u ≤ v) (hv : p.fits v = true) : p.fits u = true :=
  decide_eq_true (Nat.lt_of_le_of_lt h (of_decide_eq_true hv))

/-- A fresh period, however it was written: not 0, the counter at 0, update events enabled. -/
theorem timerInv_of_fresh {p : Nat} (hp : p ≠ 0) (hperiod : t.tmr.period = some p) (hcnt : t.tmr.cnt = 0)
    (huev : t.tmr.uevEn = true) : TimerInv t := by
  refine ⟨huev, fun _ => by simp [hperiod], fun q hq => ?_⟩
  cases hperiod.symm.trans hq
  exact hcnt ▸ Nat.pos_of_ne_zero hp

/-- The invariant of the timer speaks of the timer's cells alone. -/
theorem timerInv_of_tmr_eq (h : t.tmr = s.tmr) (hinv : TimerInv s) : TimerInv t := by
  rw [TimerInv, h]
  exact hinv

/-- Reprogramming, wherever it happens, leaves the invariant of the timer. -/
theorem timerInv_of_withPeriod {p : Nat} (hp : p ≠ 0) (h : t.tmr = s.tmr.withPeriod p) : TimerInv t :=
  timerInv_of_fresh hp (by rw [h]; rfl) (by rw [h]; rfl) (by rw [h]; rfl)

/-- A descriptor that did not change is as good as before while the timer's enables did not change. -/
theorem descriptorInv_of_eq (htd : t.td = s.td) (he : sameEnables s t) (h : DescriptorInv s) : DescriptorInv t := by
  obtain ⟨hrun, hie⟩ := he
  rw [DescriptorInv, htd, hrun, hie]
  exact h

/-- An inert descriptor asks nothing of the timer. -/
theorem descriptorInv_of_done (h : t.td.phase = .done) : DescriptorInv t :=
  ⟨phaseEntered_iff.mpr (.inr (.inr h)), fun hr => (by cases h.symm.trans hr),
    fun ha => (by cases (active_eq_false.mpr h).symm.trans ha)⟩

/-! ### The invariant: foreground -/

/-- Neither asleep, nor stalled, nor waiting for another read of the phase. -/
abbrev awake (s : State) : Prop := s.fg.sleeping = false ∧ s.fg.stall = 0 ∧ s.fg.yielded = false

/-- At these labels of `RESET` the pin is in `input` (42 R110). -/
abbrev Label.inInput (l : Label) : Bool := [Label.b5, .b6, .b7].contains l

theorem foregroundInv_of_awake (ha : awake s) (hlabel : labelOf s.fg.op s.fg.step = true)
    (htimer : usesTimer s.fg.op = true → s.td.phase = .done) (himm : s.fg.op = some .waitUs → s.fg.imm ≠ 0)
    (hdir : s.fg.op = some .reset → (s.ld.dir = .input ↔ s.fg.step.inInput = true)) : ForegroundInv s := by
  obtain ⟨hsleep, hstall, hyield⟩ := ha
  exact ⟨hlabel, htimer, himm, hdir, fun h => (by cases hsleep.symm.trans h), fun h => absurd hstall h,
    fun h => (by cases hyield.symm.trans h)⟩

theorem foregroundInv_of_idle (h : idle s) : ForegroundInv s := by
  obtain ⟨hop, ha⟩ := h
  refine foregroundInv_of_awake ha ?_ ?_ ?_ ?_ <;> rw [hop]
  · rfl
  all_goals nofun

/-- A foreground that stays where it is, asleep, stalled or polling at most as before. -/
theorem foregroundInv_of_sameSequencer (hf : ForegroundInv s) (hseq : sameSequencer s t) (hdir : t.ld.dir = s.ld.dir)
    (hdone : s.td.phase = .done → t.td.phase = .done) (hsleep : t.fg.sleeping = true → s.fg.sleeping = true)
    (hstall : t.fg.stall ≠ 0 → s.fg.stall ≠ 0) (hyield : t.fg.yielded = true → s.fg.yielded = true) :
    ForegroundInv t := by
  obtain ⟨flabel, ftimer, fimm, fdir, fsleep, fstall, fyield⟩ := hf
  obtain ⟨hop, hstep, himm, -, -⟩ := hseq
  rw [ForegroundInv, hop, hstep, himm, hdir]
  exact ⟨flabel, hdone ∘ ftimer, fimm, fdir, fsleep ∘ hsleep, fstall ∘ hstall, fyield ∘ hyield⟩

/-- A foreground that can accept a command is idle in every respect. -/
theorem idle_of_accept {w : Nat} (hf : ForegroundInv s) (h : fgTurn s = .accept w) : idle s := by
  obtain ⟨-, -, -, -, -, -, hyield⟩ := hf
  obtain ⟨hop, -, hsleep, hstall⟩ := fgTurn_accept.mp h
  refine ⟨hop, hsleep, hstall, ?_⟩
  by_contra hy
  rw [hop] at hyield
  cases hyield (by simpa using hy)

/-! ### Accepting a command keeps the invariant -/

theorem Accepts.timerInv {i : Instr} (h : Accepts s i t) (hinv : TimerInv s) : TimerInv t := by
  cases h with
  | waitUs hi => exact timerInv_of_withPeriod hi rfl
  | tsetp hi => exact timerInv_of_withPeriod hi rfl
  | arm _ hper => exact timerInv_of_fresh hper rfl rfl rfl
  | tstart hp =>
    obtain ⟨huev, -, hcnt⟩ := hinv
    exact ⟨huev, fun _ => hp, hcnt⟩
  | waitdone => exact timerInv_of_tmr_eq (microQ0_tmr _) hinv
  | _ => exact hinv

theorem Accepts.descriptorInv {i : Instr} (h : Accepts s i t) (hinv : DescriptorInv s) : DescriptorInv t := by
  cases h with
  | arm _ _ hph =>
    refine ⟨phaseEntered_iff.mpr ?_, ?_, fun _ => ⟨rfl, rfl⟩⟩
    · rcases hph with ⟨rfl, -⟩ | rfl
      · exact .inl rfl
      · exact .inr (.inl rfl)
    · rcases hph with ⟨-, hnd⟩ | rfl
      · exact fun _ => hnd
      · nofun
  | tstart =>
    obtain ⟨hph, hreset, henables⟩ := hinv
    exact ⟨hph, hreset, fun ha => ⟨rfl, (henables ha).2⟩⟩
  | tien =>
    obtain ⟨hph, hreset, henables⟩ := hinv
    exact ⟨hph, hreset, fun ha => ⟨(henables ha).1, rfl⟩⟩
  | waitdone =>
    have hq := microQ0_performs (s := beginCommand .waitdone .q0 s) rfl
    exact descriptorInv_of_eq (s := s) hq.td hq.sameEnables hinv
  | _ => exact hinv

theorem Accepts.foregroundInv {i : Instr} (h : Accepts s i t) (hidle : idle s) : ForegroundInv t := by
  obtain ⟨-, ha⟩ := hidle
  cases h with
  | waitUs hi hp => exact foregroundInv_of_awake ha rfl (fun _ => hp) (fun _ => hi) nofun
  | waitMs hp => exact foregroundInv_of_awake ha rfl (fun _ => hp) nofun nofun
  | reset hp hd => exact foregroundInv_of_awake ha rfl (fun _ => hp) nofun fun _ => by simp [hd]
  | waitdone =>
    unfold microQ0
    split
    · exact foregroundInv_of_idle ⟨rfl, ha⟩
    · obtain ⟨hsleep, hstall, -⟩ := ha
      exact ⟨rfl, nofun, nofun, nofun, fun h => (by cases hsleep.symm.trans h), fun h => absurd hstall h, fun _ => rfl⟩
  | _ => exact foregroundInv_of_idle ⟨rfl, ha⟩

theorem Accepts.widthInv {i : Instr} (h : Accepts s i t) (hfit : i.fits s.cfg = true) (hinv : WidthInv s) :
    WidthInv t := by
  obtain ⟨hlit, hperiod, hcnt, hdelay, himm, hrep, hcmd⟩ := hinv
  have hzero := fits_zero s.cfg
  cases h with
  | waitUs => exact ⟨hlit, by rintro _ ⟨⟩; exact hfit, hzero, hdelay, hfit, hrep, hcmd⟩
  | tsetp => exact ⟨hlit, by rintro _ ⟨⟩; exact hfit, hzero, hdelay, hfit, hrep, hcmd⟩
  | waitMs => exact ⟨hlit, hperiod, hcnt, hdelay, hfit, hfit, hcmd⟩
  | arm =>
    obtain ⟨hper, hnd⟩ := (Bool.and_eq_true _ _).mp hfit
    exact ⟨hlit, by rintro _ ⟨⟩; exact hper, hzero, hnd, himm, hrep, hcmd⟩
  | waitdone => unfold microQ0; split <;> exact ⟨hlit, hperiod, hcnt, hdelay, himm, hrep, hcmd⟩
  | _ => exact ⟨hlit, hperiod, hcnt, hdelay, himm, hrep, hcmd⟩

/-! ### A micro-operation keeps the invariant -/

theorem Performs.timerInv (h : Performs s t) (hinv : TimerInv s) : TimerInv t := by
  rcases h.tmr with htmr | ⟨site, -, hd, htmr⟩
  · exact timerInv_of_tmr_eq htmr hinv
  · exact timerInv_of_withPeriod hd htmr

theorem Performs.widthInv (h : Performs s t) (hinv : WidthInv s) : WidthInv t := by
  obtain ⟨hlit, hperiod, hcnt, hdelay, himm, hrep, hcmd⟩ := hinv
  cases h with
  | @waitStart site hst hd =>
    have hfit : s.cfg.fits (waitDuration site s) = true :=
      (legalPeriod_iff.mp (waitDuration_legal hlit (by rintro rfl; exact legalPeriod_iff.mpr ⟨hd, himm⟩))).2
    exact ⟨hlit, by rintro _ ⟨⟩; exact hfit, fits_zero _, hdelay, himm, hrep, hcmd⟩
  | @waitExit site => cases site <;> exact ⟨hlit, hperiod, hcnt, hdelay, himm, hrep, hcmd⟩
  | m0 => exact ⟨hlit, hperiod, hcnt, hdelay, himm, himm, hcmd⟩
  | repeatWait => exact ⟨hlit, hperiod, hcnt, hdelay, himm, fits_of_le (Nat.sub_le _ 1) hrep, hcmd⟩
  | _ => exact ⟨hlit, hperiod, hcnt, hdelay, himm, hrep, hcmd⟩

/-- A foreground that goes to another label of its command, awake there, with the pin as that label has it. -/
theorem foregroundInv_of_advance (hf : ForegroundInv s) (hrun : s.fg.op ≠ none) (ha : awake t)
    (hop : t.fg.op = s.fg.op) (himm : t.fg.imm = s.fg.imm) (htd : t.td = s.td)
    (hlabel : labelOf (some s.fg.step.owner) t.fg.step = true)
    (hdir : s.fg.op = some .reset → (t.ld.dir = .input ↔ t.fg.step.inInput = true)) : ForegroundInv t := by
  have howner := op_eq_owner hf hrun
  obtain ⟨-, ftimer, fimm, -⟩ := hf
  refine foregroundInv_of_awake ha ?_ ?_ ?_ ?_ <;> rw [hop]
  · rw [howner]; exact hlabel
  · rw [htd]; exact ftimer
  · rw [himm]; exact fimm
  · exact hdir

/-- The foreground after a wait: the command ends, or goes to the label that follows the wait. -/
theorem foregroundInv_waitExit {site : WaitSite} (hst : s.fg.step = .w1 site) (hf : ForegroundInv s)
    (hrun : s.fg.op ≠ none) (ha : awake s) : ForegroundInv (waitExit site s) := by
  have advance := foregroundInv_of_advance hf hrun (t := waitExit site s)
  obtain ⟨-, -, -, fdir, -⟩ := hf
  rw [hst] at advance fdir
  cases site with
  | waitUs => exact foregroundInv_of_idle ⟨rfl, ha⟩
  | _ => exact advance ha rfl rfl rfl rfl fdir

theorem Performs.foregroundInv (h : Performs s t) (hf : ForegroundInv s) (hrun : s.fg.op ≠ none) (ha : awake s) :
    ForegroundInv t := by
  have howner := op_eq_owner hf hrun
  have advance := foregroundInv_of_advance hf hrun (t := t)
  obtain ⟨flabel, ftimer, fimm, fdir, -⟩ := id hf
  obtain ⟨hsleep, hstall, hyield⟩ := id ha
  cases h with
  | @waitStart site hst =>
    rw [hst] at advance fdir
    exact advance ha rfl rfl rfl (by cases site <;> rfl) fdir
  | waitExit hst => exact foregroundInv_waitExit hst hf hrun ha
  | waitSleep hst =>
    rw [hst] at flabel fdir
    exact ⟨flabel, ftimer, fimm, fdir, fun _ => ⟨hrun, rfl⟩, fun h => absurd hstall h,
      fun h => (by cases hyield.symm.trans h)⟩
  | b4 hst =>
    rw [hst] at advance
    exact advance ha rfl rfl rfl rfl fun _ => iff_of_true rfl rfl
  | b6 hst =>
    rw [hst] at howner fdir
    exact ⟨by rw [show (microB6 s).fg.op = _ from howner]; rfl, ftimer, fimm, fdir,
      fun h => (by cases hsleep.symm.trans h), fun _ => ⟨howner, rfl⟩, fun h => (by cases hyield.symm.trans h)⟩
  | b7 hst =>
    rw [hst] at advance
    exact advance ha rfl rfl rfl rfl fun _ => iff_of_false nofun nofun
  | pollAgain hst =>
    rw [hst] at howner flabel fdir
    exact ⟨flabel, ftimer, fimm, fdir, fun h => (by cases hsleep.symm.trans h), fun h => absurd hstall h,
      fun _ => howner⟩
  | repeatEnd | b9 | pollEnd => exact foregroundInv_of_idle ⟨rfl, ha⟩
  | m0 hst | repeatWait hst | b0 hst | b2 hst | b5 hst =>
    rw [hst] at advance fdir
    exact advance ha rfl rfl rfl rfl fdir

/-! ### Every own step of the block keeps the invariant -/

theorem latencyInv_of_sameTime (h : SameTime s t) (hinv : LatencyInv s) : LatencyInv t := by
  rw [LatencyInv, h.irqAge, h.cfg]
  exact hinv

/-- The accepted word leaves the port; what a waiting word had to fit is void. -/
theorem takeCmd_keeps_inv (h : BlockInv s) : BlockInv (takeCmd s) := by
  obtain ⟨htmr, htd, hf, hage, hlit, hperiod, hcnt, hdelay, himm, hrep, -⟩ := h
  exact ⟨htmr, htd, hf, hage, hlit, hperiod, hcnt, hdelay, himm, hrep, nofun⟩

theorem exec_keeps_inv {i : Instr} (h : exec i s = .next t) (hidle : idle s) (hfit : i.fits s.cfg = true)
    (hinv : BlockInv s) : BlockInv t := by
  obtain ⟨htmr, htd, -, hage, hwidth⟩ := hinv
  have hacc := exec_next h
  exact ⟨hacc.timerInv htmr, hacc.descriptorInv htd, hacc.foregroundInv hidle,
    latencyInv_of_sameTime (exec_sameTime h) hage, hacc.widthInv hfit hwidth⟩

theorem microStep_keeps_inv (h : microStep s = .next t) (hm : fgTurn s = .micro) (hinv : BlockInv s) : BlockInv t := by
  obtain ⟨htmr, htd, hf, hage, hwidth⟩ := hinv
  obtain ⟨hrun, ha⟩ := fgTurn_micro.mp hm
  have hp := microStep_next h
  exact ⟨hp.timerInv htmr, descriptorInv_of_eq hp.td hp.sameEnables htd, hp.foregroundInv hf hrun ha,
    latencyInv_of_sameTime (microStep_sameTime h) hage, hp.widthInv hwidth⟩

/-- The handler wakes the foreground and leaves its place; it ends the sequence or starts a legal period. -/
theorem takeInterrupt_keeps_inv (h : takeInterrupt s = .next t) (hinv : BlockInv s) : BlockInv t := by
  obtain ⟨htmr, htd, hf, -, hwidth⟩ := hinv
  have hlat : LatencyInv (settleIrq (irqPrologue s)) := Nat.zero_le _
  have fg {u : State} (hfg : u.fg = (settleIrq (irqPrologue s)).fg) (hdir : u.ld.dir = s.ld.dir)
      (hdone : s.td.phase = .done → u.td.phase = .done) : ForegroundInv u :=
    foregroundInv_of_sameSequencer hf (by rw [sameSequencer, hfg]; exact ⟨rfl, rfl, rfl, rfl, rfl⟩) hdir hdone
      (by rw [hfg]; nofun) (by rw [hfg]; exact id) (by rw [hfg]; nofun)
  rcases takeInterrupt_next h with ⟨-, rfl⟩ | ⟨-, -, rfl⟩ | ⟨hp, hd, rfl⟩
  · exact ⟨htmr, htd, fg rfl rfl id, hlat, hwidth⟩
  · exact ⟨htmr, descriptorInv_of_done rfl, fg rfl rfl fun _ => rfl, hlat, hwidth⟩
  · have hactive : s.td.phase ≠ .done := by rcases hp with hp | hp <;> rw [hp] <;> nofun
    obtain ⟨-, -, henables⟩ := htd
    obtain ⟨hlit, -, -, hdelay, hseq⟩ := hwidth
    exact ⟨timerInv_of_withPeriod hd rfl,
      ⟨rfl, nofun, fun _ => henables (decide_eq_true hactive)⟩,
      fg rfl rfl fun hdone => absurd hdone hactive, hlat,
      hlit, by rintro _ ⟨⟩; exact hdelay, fits_zero _, fits_zero _, hseq⟩

/-- A microsecond moves the counter below the period, and a waiting request no further than `IRQ_LAT_US`. -/
theorem tick_keeps_inv (h : tick s = .next t) (hq : s.irq = true → s.irqAge < s.cfg.irqLatUs) (hinv : BlockInv s) :
    BlockInv t := by
  obtain ⟨⟨huev, hper, hcnt⟩, htd, hf, -, hlit, hfper, hfcnt, hdelay, himm, hrep, hcmd⟩ := hinv
  have hm := tick_microsecond h
  refine ⟨⟨hm.uevEn ▸ huev, ?_, ?_⟩, descriptorInv_of_eq hm.td hm.enables htd, ?_, ?_, ?_⟩
  · rw [hm.enables.1, hm.period]
    exact hper
  · rw [hm.period]
    intro p hp
    rcases hm.cnt with hc | hc | ⟨q, hq, hc⟩
    · exact hc ▸ hcnt p hp
    · exact hc ▸ Nat.zero_lt_of_lt (hcnt p hp)
    · exact Option.mem_unique hq hp ▸ hc
  · refine foregroundInv_of_sameSequencer hf ?_ (by rw [hm.ld]) (by rw [hm.td]; exact id) ?_ ?_ ?_
    · rw [sameSequencer, hm.fg]
      exact ⟨rfl, rfl, rfl, rfl, rfl⟩
    · rw [hm.fg]
      exact id
    · rw [hm.fg]
      show s.fg.stall - 1 ≠ 0 → s.fg.stall ≠ 0
      omega
    · rw [hm.fg]
      nofun
  · rw [LatencyInv, hm.irqAge, hm.cfg]
    split
    · exact hq ‹_›
    · exact Nat.zero_le _
  · rw [WidthInv, hm.cfg, hm.period, hm.td, hm.fg, hm.cmd]
    refine ⟨hlit, hfper, ?_, hdelay, himm, hrep, hcmd⟩
    rcases hm.cnt with hc | hc | ⟨q, hq, hc⟩
    · exact hc ▸ hfcnt
    · exact hc ▸ fits_zero _
    · exact fits_of_le hc.le (hfper q hq)

theorem OwnMove.keeps_inv {o : Host.Outcome State Fault Refusal} (m : OwnMove s o) (h : o = .next t)
    (hinv : BlockInv s) : BlockInv t := by
  cases m with
  | irq => exact takeInterrupt_keeps_inv h hinv
  | refuse => cases h
  | accept w hacc i hd =>
    obtain ⟨-, -, hf, -⟩ := id hinv
    have hidle := idle_of_accept hf hacc
    exact exec_keeps_inv h hidle (fits_of_decode hd) (takeCmd_keeps_inv hinv)
  | micro hm => exact microStep_keeps_inv h hm hinv
  | time _ hq => exact tick_keeps_inv h hq hinv

/-! ### So does every step of the environment -/

theorem wake_keeps_inv (h : BlockInv s) : BlockInv (wake s) := by
  obtain ⟨htmr, htd, hf, hage, hwidth⟩ := h
  exact ⟨htmr, htd, foregroundInv_of_sameSequencer hf ⟨rfl, rfl, rfl, rfl, rfl⟩ rfl id nofun id id, hage, hwidth⟩

theorem presentCmd_keeps_inv (w : Nat) (h : BlockInv s) : BlockInv (presentCmd w s) := by
  obtain ⟨htmr, htd, hf, hage, hlit, hperiod, hcnt, hdelay, himm, hrep, -⟩ := h
  exact ⟨htmr, htd, hf, hage, hlit, hperiod, hcnt, hdelay, himm, hrep,
    by rintro _ ⟨⟩; exact Nat.mod_lt _ (Nat.two_pow_pos _)⟩

/-- Of the state before it a hardware reset needs the parameters and the presented word only. -/
theorem hardwareReset_inv (hlit : s.cfg.literalsFit = true) (hcmd : ∀ w ∈ s.cmd, w < 2 ^ s.cfg.cmdBits) :
    BlockInv (hardwareReset s) := by
  have hzero := fits_zero s.cfg
  exact ⟨⟨rfl, nofun, nofun⟩, descriptorInv_of_done rfl, foregroundInv_of_idle ⟨rfl, rfl, rfl, rfl⟩, Nat.zero_le _,
    hlit, nofun, hzero, hzero, hzero, hzero, hcmd⟩

/-! ### Hardware reset and the accepting of a word -/

theorem reset_eq_hardwareReset : State.reset = hardwareReset State.reset := rfl

theorem step_of_rst (h : s.turn = .rst) : step s = .next (hardwareReset s.onTurn) := by
  rw [step_eq_takeTurn, h]
  rfl

theorem fgTurn_of_idle_port (hop : s.fg.op = none) (hcmd : s.cmd = none) : fgTurn s = .blocked := by
  simp [fgTurn, hop, hcmd]

/-- With no interrupt requested a turn of the block is the foreground's or time's. -/
theorem step_of_no_irq (hq : s.irq = false) (hturn : s.turn = .go ∨ s.turn = .hold) :
    step s = fgOrTick s.onTurn := by
  rw [step_eq_takeTurn]
  rcases hturn with h | h <;> simp [h, takeTurn, ownStep, hq]

theorem acceptWord_of_decode {w : Nat} {i : Instr} (h : decode s.cfg (BitVec.ofNat _ w) = .ok i) :
    acceptWord w s = exec i (takeCmd s) := by
  rw [acceptWord, h]

/-! ### The statements -/

/-- Settles O46, by the moves of a step: each keeps every part of the invariant. -/
theorem stepKeepsInv : Obligations.StepKeepsInv := by
  intro s t hinv h
  cases h ▸ step_move s with
  | ext => exact hinv
  | wake => exact wake_keeps_inv (s := s.onTurn) hinv
  | cmd w => exact presentCmd_keeps_inv (s := s.onTurn) w hinv
  | rst =>
    obtain ⟨-, -, -, -, hlit, -, -, -, -, -, hcmd⟩ := hinv
    exact hardwareReset_inv hlit hcmd
  | own _ m => exact m.keeps_inv rfl hinv

/-- Settles O49: a step that changes an enable accepts a command, and of the commands three set one, none clears one. -/
theorem timerEnablesOnlyRise : Obligations.TimerEnablesOnlyRise := by
  intro s t h hrst
  rcases step_sameEnables_or_accepts h hrst with ⟨hrun, hie⟩ | ⟨w, i, hcmd, hdec, hacc⟩
  · rw [hrun, hie]
    exact ⟨id, id, fun h0 h1 => absurd h1 (by simp [h0]), fun h0 h1 => absurd h1 (by simp [h0])⟩
  · refine ⟨fun h1 => ?_, fun h1 => ?_, fun h0 h1 => ⟨w, i, hcmd, hdec, ?_⟩, fun h0 h1 => ⟨w, i, hcmd, hdec, ?_⟩⟩
    · exact hacc.run.elim (·.trans h1) And.left
    · exact hacc.ie.elim (·.trans h1) And.left
    · exact (hacc.run.resolve_left fun he => by cases h1.symm.trans (he.trans h0)).2
    · exact (hacc.ie.resolve_left fun he => by cases h1.symm.trans (he.trans h0)).2

/-- Settles O50, by the moves of a step: an active descriptor refuses `ARM`, its only other writer. -/
theorem activeDescriptorOwnedByHandler : Obligations.ActiveDescriptorOwnedByHandler := by
  intro s t h hrst hactive
  cases h ▸ step_move s with
  | ext | wake | cmd => exact .inl rfl
  | rst hturn => exact absurd hturn hrst
  | own hturn m => exact m.td rfl hactive

/-- Settles O6: the turn is the foreground's, the foreground accepts, and the word decodes. -/
theorem stepRunsDecodedCommand : Obligations.StepRunsDecodedCommand := by
  intro s w i hq hacc hdec hturn
  rw [step_of_no_irq hq hturn, fgOrTick, hacc]
  exact acceptWord_of_decode hdec

/-- Settles O9: a line that is not pulled by the block is the others'. -/
theorem lineLevels : Obligations.LineLevels := by
  intro s
  have hhigh (h : s.ld.dlatch = .high) := padLow_eq_false_of_high h
  have hinput (h : s.ld.dir = .input) := padLow_eq_false_of_input h
  exact ⟨padLow_iff, bus_eq_low_iff, fun hd hl => bus_eq_low_iff.mpr (.inl (padLow_iff.mpr ⟨hd, hl⟩)),
    fun _ hl => ⟨hhigh hl, bus_of_not_padLow (hhigh hl)⟩, fun hd => ⟨hinput hd, bus_of_input hd⟩,
    execSample_admitted_iff⟩

/-- Settles O43: both states are a hardware reset of some state. -/
theorem hardwareResetValues : Obligations.HardwareResetValues := by
  intro r hr
  obtain ⟨u, rfl⟩ : ∃ u, r = hardwareReset u := by
    rcases hr with rfl | ⟨s, hturn, h⟩
    · exact ⟨_, reset_eq_hardwareReset⟩
    · rw [step_of_rst hturn] at h
      cases h
      exact ⟨_, rfl⟩
  exact ⟨rfl, rfl, rfl, rfl, rfl, rfl, rfl, rfl, rfl, fgTurn_of_idle_port rfl⟩

/-- Settles O45: the state after reset is a hardware reset, and its parameters are the defaults, which fit. -/
theorem invHoldsAtReset : Obligations.InvHoldsAtReset :=
  hardwareReset_inv (s := State.reset) (by decide) nofun

end Sys2Proof.Machine
end

section
/-! PROOF. Which steps write the two flags, and which cells the accepting of a command leaves alone: the statements of
20_memory. -/

namespace Sys2Proof.Machine

variable {s t : State}

/-! ### The busy-poll writes the sequencer alone -/

@[simp] theorem microQ0_ld (s : State) : (microQ0 s).ld = s.ld := by unfold microQ0; split <;> rfl
@[simp] theorem microQ0_de (s : State) : (microQ0 s).de = s.de := by unfold microQ0; split <;> rfl
@[simp] theorem microQ0_resp (s : State) : (microQ0 s).resp = s.resp := by unfold microQ0; split <;> rfl
@[simp] theorem microQ0_fg_s (s : State) : (microQ0 s).fg.s = s.fg.s := by unfold microQ0; split <;> rfl
@[simp] theorem microQ0_fg_sleeping (s : State) : (microQ0 s).fg.sleeping = s.fg.sleeping := by
  unfold microQ0; split <;> rfl

/-! ### The cells a command may write -/

/-- The state right after a `W0`: at the `W1` of the same wait, the timer at the start of that wait's period (40 R81). -/
def FreshWait (t : State) : Prop :=
  ∃ site, t.fg.step = .w1 site ∧ t.tmr.cnt = 0 ∧ t.tmr.period = some (waitDuration site t)

/-- Only `ARM` writes the descriptor (43 R120). -/
theorem Accepts.td_of_ne_arm {i : Instr} (h : Accepts s i t) (harm : i.opcode ≠ .arm) : t.td = s.td := by
  cases h with
  | arm => exact absurd rfl harm
  | waitdone => exact (microQ0_performs rfl).td
  | _ => rfl

/-- Only `SETDIR` writes `LD.dir` in the step that accepts it (10_state R11). -/
theorem Accepts.dir {i : Instr} (h : Accepts s i t) (hsetdir : i.opcode ≠ .setdir) : t.ld.dir = s.ld.dir := by
  cases h with
  | setdir => exact absurd rfl hsetdir
  | waitdone => simp
  | _ => rfl

/-- Only `DRIVE` and `RESET` write `LD.dlatch` in the step that accepts them (10_state R12). -/
theorem Accepts.dlatch {i : Instr} (h : Accepts s i t) (hdrive : i.opcode ≠ .drive) (hreset : i.opcode ≠ .reset) :
    t.ld.dlatch = s.ld.dlatch := by
  cases h with
  | drive => exact absurd rfl hdrive
  | reset => exact absurd rfl hreset
  | waitdone => simp
  | _ => rfl

/-- Only `WAIT_US` writes `DE.tick` in the step that accepts it: it clears the flag and starts its wait (10_state R20). -/
theorem Accepts.de {i : Instr} (h : Accepts s i t) :
    t.de = s.de ∨ (i.opcode = .waitUs ∧ t.de.tick = false ∧ FreshWait t) := by
  cases h with
  | waitUs => exact .inr ⟨rfl, rfl, .waitUs, rfl, rfl, rfl⟩
  | waitdone => exact .inl (by simp)
  | _ => exact .inl rfl

/-- Only `SAMPLE`, `POLL` and `TQP` write `RESP` in the step that accepts them (10_state R27). -/
theorem Accepts.resp {i : Instr} (h : Accepts s i t) (hsample : i.opcode ≠ .sample) (hpoll : i.opcode ≠ .poll)
    (htqp : i.opcode ≠ .tqp) : t.resp = s.resp := by
  cases h with
  | sample => exact absurd rfl hsample
  | poll => exact absurd rfl hpoll
  | tqp => exact absurd rfl htqp
  | waitdone => simp
  | _ => rfl

/-- Only `WAIT_US`, `ARM` and `TSETP` rewrite the period in the step that accepts them (40 R80). -/
theorem Accepts.period_cnt_uevEn {i : Instr} (h : Accepts s i t) (hwaitUs : i.opcode ≠ .waitUs)
    (harm : i.opcode ≠ .arm) (htsetp : i.opcode ≠ .tsetp) :
    t.tmr.period = s.tmr.period ∧ t.tmr.cnt = s.tmr.cnt ∧ t.tmr.uevEn = s.tmr.uevEn := by
  cases h with
  | waitUs => exact absurd rfl hwaitUs
  | arm => exact absurd rfl harm
  | tsetp => exact absurd rfl htsetp
  | waitdone => simp [microQ0_tmr]
  | _ => exact ⟨rfl, rfl, rfl⟩

/-- Only `ARM` and `TCLRP` write `TMR.pend`, and they clear it (10_state R19). -/
theorem Accepts.pend {i : Instr} (h : Accepts s i t) :
    t.tmr.pend = s.tmr.pend ∨ (t.tmr.pend = false ∧ (i.opcode = .arm ∨ i.opcode = .tclrp)) := by
  cases h with
  | arm => exact .inr ⟨rfl, .inl rfl⟩
  | tclrp => exact .inr ⟨rfl, .inr rfl⟩
  | waitdone => exact .inl (by simp [microQ0_tmr])
  | _ => exact .inl rfl

/-- No command puts the foreground to sleep or samples for `RESET` in the step that accepts it (10_state R26). -/
theorem Accepts.fg_s_sleeping {i : Instr} (h : Accepts s i t) :
    t.fg.s = s.fg.s ∧ t.fg.sleeping = s.fg.sleeping := by
  cases h with
  | waitdone => simp
  | _ => exact ⟨rfl, rfl⟩

/-! ### The flags in the other steps of the block -/

/-- Only a `W0` writes `DE.tick`: it clears the flag and starts its wait (40 R81). -/
theorem Performs.de (h : Performs s t) : t.de = s.de ∨ (t.de.tick = false ∧ FreshWait t) := by
  cases h with
  | @waitStart site => exact .inr ⟨rfl, site, rfl, rfl, by cases site <;> rfl⟩
  | @waitExit site => cases site <;> exact .inl rfl
  | _ => exact .inl rfl

/-- A `W0` leaves the pending flag alone (92 D35), and no other micro-operation writes the timer. -/
theorem Performs.pend (h : Performs s t) : t.tmr.pend = s.tmr.pend := by
  rcases h.tmr with htmr | ⟨site, -, -, htmr⟩
  · rw [htmr]
  · rw [htmr, Timer.withPeriod]

/-- The handler's prologue sets `DE.tick` and clears `TMR.pend`, and nothing after it writes either (60 R157). -/
theorem takeInterrupt_flags (h : takeInterrupt s = .next t) : t.de.tick = true ∧ t.tmr.pend = false := by
  rcases takeInterrupt_next h with ⟨-, rfl⟩ | ⟨-, -, rfl⟩ | ⟨-, -, rfl⟩ <;> exact ⟨rfl, rfl⟩

theorem tick_de (h : tick s = .next t) : t.de = s.de := by
  rcases countTick_next h with ⟨-, rfl⟩ | ⟨p, -, -, ⟨-, rfl⟩ | ⟨-, rfl⟩⟩ <;> simp

/-! ### The flags in every step -/

/-- What a step may do to the two flags (20_memory R47). -/
structure FlagStep (s t : State) : Prop where
  tick : t.de.tick = s.de.tick ∨ (t.de.tick = true ∧ s.irq = true ∧ t.tmr.pend = false) ∨
    (t.de.tick = false ∧ FreshWait t)
  pend : t.tmr.pend = s.tmr.pend ∨ t.tmr.pend = false ∨ t.nowUs = s.nowUs + 1

theorem OwnMove.flagStep {o : Host.Outcome State Fault Refusal} (m : OwnMove s o) (h : o = .next t) :
    FlagStep s t := by
  cases m with
  | irq hi =>
    obtain ⟨htick, hpend⟩ := takeInterrupt_flags h
    exact ⟨.inr (.inl ⟨htick, hi, hpend⟩), .inr (.inl hpend)⟩
  | refuse => cases h
  | accept =>
    have hacc := exec_next h
    exact ⟨hacc.de.imp (congrArg DelayEngine.tick) fun hw => .inr hw.2, hacc.pend.imp_right fun hp => .inl hp.1⟩
  | micro =>
    have hperf := microStep_next h
    exact ⟨hperf.de.imp (congrArg DelayEngine.tick) .inr, .inl hperf.pend⟩
  | time => exact ⟨.inl (congrArg DelayEngine.tick (tick_de h)), .inr (.inr (tick_sameOutside h).2)⟩

theorem step_flagStep (h : step s = .next t) (hrst : s.turn ≠ .rst) : FlagStep s t := by
  cases h ▸ step_move s with
  | ext | wake | cmd => exact ⟨.inl rfl, .inl rfl⟩
  | rst hturn => exact absurd hturn hrst
  | own _ m =>
    obtain ⟨htick, hpend⟩ := m.flagStep rfl
    exact ⟨htick, hpend⟩

/-! ### The statements -/

/-- Settles O51: the handler sets `DE.tick`, a `W0` clears it, and of all steps a TICK step alone sets `TMR.pend`. -/
theorem flagWriters : Obligations.FlagWriters := by
  intro s t h hrst
  obtain ⟨htick, hpend⟩ := step_flagStep h hrst
  refine ⟨fun h0 h1 => ?_, fun h1 h0 => ?_, fun h0 h1 => ?_⟩
  · rcases htick with he | ⟨-, hset⟩ | ⟨hclear, -⟩
    · cases h1.symm.trans (he.trans h0)
    · exact hset
    · cases h1.symm.trans hclear
  · rcases htick with he | ⟨hset, -⟩ | ⟨-, hwait⟩
    · cases h0.symm.trans (he.trans h1)
    · cases h0.symm.trans hset
    · exact hwait
  · rcases hpend with he | hclear | htime
    · cases h1.symm.trans (he.trans h0)
    · cases h1.symm.trans hclear
    · exact htime

/-- Settles O52, cell by cell over what the accepting of a command can do. -/
theorem commandFrames : Obligations.CommandFrames := by
  intro i s t h
  have hacc := exec_next h
  obtain ⟨⟨hcfg, hext, hturns, hcmd⟩, hnow, -⟩ := exec_sameTime h
  obtain ⟨hs, hsleeping⟩ := hacc.fg_s_sleeping
  refine ⟨hacc.td_of_ne_arm, hacc.dir, hacc.dlatch, ?de, hacc.resp, hacc.period_cnt_uevEn, ?pend, ?run, ?ie,
    hs, hsleeping, hnow, hext, hcmd, hturns, hcfg⟩
  case de => exact fun hwaitUs => hacc.de.resolve_right fun hw => hwaitUs hw.1
  case pend => exact fun harm htclrp => hacc.pend.resolve_right fun hw => hw.2.elim harm htclrp
  case run => exact fun harm htstart => hacc.run.resolve_right fun hw => hw.2.elim htstart harm
  case ie => exact fun harm htien => hacc.ie.resolve_right fun hw => hw.2.elim htien harm

end Sys2Proof.Machine
end

section
/-! PROOF. The command word read and written: the statements of 30_encoding about the bits of a word. -/

namespace Sys2Proof

variable {p : Params}

/-! ### The codes of the fields -/

theorem Level.ofCode_code (l : Level) : Level.ofCode l.code = l := by cases l <;> rfl
theorem Level.code_ofCode (c : BitVec 1) : (Level.ofCode c).code = c := by revert c; decide
theorem Direction.ofCode_code (d : Direction) : Direction.ofCode d.code = d := by cases d <;> rfl
theorem Direction.code_ofCode (c : BitVec 1) : (Direction.ofCode c).code = c := by revert c; decide
theorem Phase.ofCode_code (ph : Phase) : Phase.ofCode ph.code = ph := by cases ph <;> rfl
theorem Phase.code_ofCode (c : BitVec 3) : (Phase.ofCode c).code = c := by revert c; decide

theorem Opcode.ofCode_code (op : Opcode) : Opcode.ofCode op.code = some op := by cases op <;> rfl

theorem Opcode.ofCode_eq_some {c : BitVec 8} {op : Opcode} : Opcode.ofCode c = some op ↔ op.code = c := by
  refine ⟨fun h => ?_, fun h => h ▸ op.ofCode_code⟩
  simpa using List.find?_some h

theorem Opcode.ofCode_eq_none {c : BitVec 8} : Opcode.ofCode c = none ↔ ∀ op : Opcode, c ≠ op.code := by
  rw [Option.eq_none_iff_forall_ne_some]
  exact forall_congr' fun op => not_congr (Opcode.ofCode_eq_some.trans eq_comm)

theorem Opcode.code_injective {a b : Opcode} (h : a.code = b.code) : a = b :=
  Option.some.inj (a.ofCode_code.symm.trans (Opcode.ofCode_eq_some.mpr h.symm))

/-! ### A word that matches a row of the opcode map -/

/-- A word that matches a row carries the row's `OP`: no format gives a bit of `OP` to an operand (30_encoding R63). -/
theorem bitField_opAt_of_match {w : CmdWord p} {op : Opcode} (h : w &&& op.mask p = op.pattern p) :
    bitField w p.opAt 8 = op.code := by
  have hrow : bitField (op.pattern p) p.opAt 8 = op.code := bitField_encodeN op
  rw [← hrow, ← h]
  apply BitVec.eq_of_getLsbD_eq
  intro i hi
  have hw : p.opAt + i < p.cmdBits := by simp only [Params.opAt, Params.cmdBits]; omega
  rw [getLsbD_bitField, getLsbD_bitField, BitVec.getLsbD_and, Opcode.mask, Format.mask, BitVec.getLsbD_not,
    getLsbD_operandBits_of_opAt_le _ _ (Nat.le_add_right ..)]
  simp [hw]

/-- A word of a row is the row's pattern and, in the bits the format gives to operands, the word's own. -/
theorem eq_pattern_or_operands {w : CmdWord p} {op : Opcode} (h : w &&& op.mask p = op.pattern p) :
    w = op.pattern p ||| w &&& op.format.operandBits p := by
  rw [← h, Opcode.mask, Format.mask]
  apply BitVec.eq_of_getLsbD_eq
  intro i hi
  rw [BitVec.getLsbD_or, BitVec.getLsbD_and, BitVec.getLsbD_and, BitVec.getLsbD_not]
  cases w.getLsbD i <;> simp [hi]

/-- The part of a word under a whole field is what the field holds, placed there. -/
theorem and_placeField_allOnes (w : CmdWord p) (len lo : Nat) :
    w &&& placeField (BitVec.allOnes len) lo = placeField (bitField w lo len) lo := by
  apply BitVec.eq_of_getLsbD_eq
  intro i hi
  rw [BitVec.getLsbD_and, getLsbD_placeField_allOnes, getLsbD_placeField, getLsbD_bitField]
  by_cases hlo : lo ≤ i
  · have hlen : i - lo < len ↔ i < lo + len := by omega
    simp [hlo, hlen, hi, Bool.and_comm]
  · simp [hlo]

theorem placeCount_countField (w : CmdWord p) (lo : Nat) :
    (placeCount (countField w lo) lo : CmdWord p) = placeField (bitField w lo p.timerBits) lo := by
  rw [placeCount, countField, BitVec.ofNat_toNat, BitVec.setWidth_eq]

/-! ### The decoder -/

theorem decode_of_unknown_op {w : CmdWord p} (h : ∀ op : Opcode, bitField w p.opAt 8 ≠ op.code) :
    decode p w = .error .unknownOpcode := by
  rw [decode, Opcode.ofCode_eq_none.mpr h]

theorem decode_of_op {w : CmdWord p} {op : Opcode} (h : bitField w p.opAt 8 = op.code) :
    decode p w = if w &&& op.mask p = op.pattern p then .ok (op.withOperands w) else .error .reservedBit := by
  rw [decode, h, op.ofCode_code]

/-- A word decodes exactly when it matches a row, and then to that row's command with the operands of the word. -/
theorem decode_eq_ok {w : CmdWord p} {i : Instr} :
    decode p w = .ok i ↔ ∃ op : Opcode, w &&& op.mask p = op.pattern p ∧ op.withOperands w = i := by
  constructor
  · intro h
    by_cases hop : ∃ op : Opcode, bitField w p.opAt 8 = op.code
    · obtain ⟨op, hop⟩ := hop
      rw [decode_of_op hop] at h
      split at h
      · next hm => exact ⟨op, hm, Except.ok.inj h⟩
      · cases h
    · rw [decode_of_unknown_op (not_exists.mp hop)] at h
      cases h
  · rintro ⟨op, hm, rfl⟩
    rw [decode_of_op (bitField_opAt_of_match hm), if_pos hm]

/-! ### The encoder against the decoder -/

/-- The encoding of a command matches the command's row. -/
theorem encode_and_mask (p : Params) (i : Instr) : encode p i &&& i.opcode.mask p = i.opcode.pattern p := by
  cases i with
  | waitUs imm => exact Laws.MatchesRow.waitUs imm p
  | waitMs imm => exact Laws.MatchesRow.waitMs imm p
  | drive l => exact Laws.MatchesRow.drive l p
  | setdir d => exact Laws.MatchesRow.setdir d p
  | arm ph per nd nlvl => exact Laws.MatchesRow.arm ph per nd nlvl p
  | tsetp imm => exact Laws.MatchesRow.tsetp imm p
  | sample | reset | poll | waitdone | tstart | tien | tclrp | tqp => exact pattern_and_mask _

/-- The operands read from the encoding of a command are the command's. -/
theorem withOperands_encode {i : Instr} (h : i.fits p = true) : i.opcode.withOperands (encode p i) = i := by
  cases i with
  | waitUs imm => exact congrArg Instr.waitUs (bitField_encodeI .waitUs h).2
  | waitMs imm => exact congrArg Instr.waitMs (bitField_encodeI .waitMs h).2
  | tsetp imm => exact congrArg Instr.tsetp (bitField_encodeI .tsetp h).2
  | drive l =>
    simp only [Instr.opcode, Opcode.withOperands, encode, bitField_encodeB, Level.ofCode_code]
  | setdir d =>
    simp only [Instr.opcode, Opcode.withOperands, encode, bitField_encodeB, Direction.ofCode_code]
  | arm ph per nd nlvl =>
    obtain ⟨hper, hnd⟩ := Bool.and_eq_true_iff.mp h
    obtain ⟨-, hnlvl, hph, hper, hnd⟩ := bitField_encodeA .arm nlvl.code ph.code hper hnd
    simp only [Instr.opcode, Opcode.withOperands, encode, hnlvl, hph, hper, hnd, Level.ofCode_code, Phase.ofCode_code]
  | sample | reset | poll | waitdone | tstart | tien | tclrp | tqp => rfl

/-- Encoding a row's command with the operands of a word gives the row's pattern and the operand bits of the word. -/
theorem encode_withOperands (op : Opcode) (w : CmdWord p) :
    encode p (op.withOperands w) = op.pattern p ||| w &&& op.format.operandBits p := by
  cases op with
  | waitUs | waitMs | tsetp =>
    simp only [Opcode.withOperands, encode, encodeI, Opcode.format, Format.operandBits, placeCount_countField,
      and_placeField_allOnes]
  | drive | setdir =>
    simp only [Opcode.withOperands, encode, encodeB, Opcode.format, Format.operandBits, Level.code_ofCode,
      Direction.code_ofCode, and_placeField_allOnes]
  | arm =>
    simp only [Opcode.withOperands, encode, encodeA, Opcode.format, Format.operandBits, Level.code_ofCode,
      Phase.code_ofCode, placeCount_countField, BitVec.and_or_distrib_left, and_placeField_allOnes, BitVec.or_assoc]
  | sample | reset | poll | waitdone | tstart | tien | tclrp | tqp =>
    simp [Opcode.withOperands, encode, encodeN, Opcode.format, Format.operandBits]

/-! ### The statements -/

/-- Settles O2: the encoding matches the command's row, and its operands read back. -/
theorem decodeOfEncode : Obligations.DecodeOfEncode :=
  fun p i h => decode_eq_ok.mpr ⟨i.opcode, encode_and_mask p i, withOperands_encode h⟩

/-- Settles O3: outside the operand bits a word that decodes is its row's pattern. -/
theorem encodeOfDecode : Obligations.EncodeOfDecode := by
  intro p w i h
  refine ⟨?_, fits_of_decode h⟩
  obtain ⟨op, hm, rfl⟩ := decode_eq_ok.mp h
  rw [encode_withOperands, ← eq_pattern_or_operands hm]

/-- Settles O4: both rows have the `OP` of the word, and no two rows have one `OP`. -/
theorem rowsDisjoint : Obligations.RowsDisjoint :=
  fun _ _ _ _ ha hb => Opcode.code_injective ((bitField_opAt_of_match ha).symm.trans (bitField_opAt_of_match hb))

/-- Settles O1: fixed words, decoded by evaluation. -/
theorem tableWordsDecode : Obligations.TableWordsDecode := by
  unfold Obligations.TableWordsDecode
  decide

end Sys2Proof
end

section
/-! PROOF. The text of a command written and read: the statement of 30_encoding about the textual form. -/

namespace Sys2Proof

variable {p : Params}

/-! ### Tokens: the names and numbers a line is made of -/

/-- A character that means something between the names and numbers of a line (30_encoding R67). -/
def isMark (c : Char) : Bool := c == ' ' || c == ';' || c == ',' || c == '('

/-- A name or number: something, and no mark in it. -/
def isToken (cs : List Char) : Bool := !cs.isEmpty && cs.all fun c => !isMark c

theorem isToken_iff {cs : List Char} :
    isToken cs = true ↔ cs ≠ [] ∧ ∀ c ∈ cs, c ≠ ' ' ∧ c ≠ ';' ∧ c ≠ ',' ∧ c ≠ '(' := by
  simp [isToken, isMark, and_assoc]

theorem isToken_append {a b : List Char} (ha : isToken a = true) (hb : isToken b = true) : isToken (a ++ b) = true := by
  simp_all [isToken]

theorem isToken_levelText (l : Level) : isToken (levelText l) = true := by cases l <;> rfl

theorem isToken_directionText (d : Direction) : isToken (directionText d) = true := by cases d <;> rfl

theorem isToken_phaseText {ph : Phase} {cs : List Char} (h : phaseText ph = some cs) : isToken cs = true := by
  cases ph <;> cases h <;> rfl

/-! ### Names and numbers read back -/

theorem readLevel_levelText (l : Level) : readLevel (levelText l) = some l := by cases l <;> rfl

theorem readDirection_directionText (d : Direction) : readDirection (directionText d) = some d := by cases d <;> rfl

theorem readPhase_phaseText {ph : Phase} {cs : List Char} (h : phaseText ph = some cs) : readPhase cs = some ph := by
  cases ph <;> cases h <;> rfl

theorem digitChar_of_lt_ten : ∀ d < 10, digitValue (digitChar d) = some d ∧ isToken [digitChar d] = true := by decide

theorem readDigits_digitChar (acc : Nat) {d : Nat} (hd : d < 10) :
    readDigits acc [digitChar d] = some (acc * 10 + d) := by
  simp [readDigits, (digitChar_of_lt_ten d hd).1]

theorem readDigits_append {acc n : Nat} {cs ds : List Char} (h : readDigits acc cs = some n) :
    readDigits acc (cs ++ ds) = readDigits n ds := by
  induction cs generalizing acc with
  | nil => cases h; rfl
  | cons c cs ih =>
    rw [readDigits] at h
    rw [List.cons_append, readDigits]
    cases hc : digitValue c with
    | none => simp [hc] at h
    | some d => exact ih (by simpa [hc] using h)

/-- With fuel above it, a number is written as digits that read back as the number. -/
theorem decDigits_reads_back {fuel n : Nat} (h : n < fuel) :
    readDigits 0 (decDigits fuel n) = some n ∧ isToken (decDigits fuel n) = true := by
  induction fuel generalizing n with
  | zero => exact absurd h (Nat.not_lt_zero n)
  | succ fuel ih =>
    rw [decDigits]
    split
    · next hn => exact ⟨by simpa using readDigits_digitChar 0 hn, (digitChar_of_lt_ten n hn).2⟩
    · obtain ⟨hread, htoken⟩ := ih (n := n / 10) (by omega)
      have hd : n % 10 < 10 := Nat.mod_lt n (by decide)
      refine ⟨?_, isToken_append htoken (digitChar_of_lt_ten _ hd).2⟩
      rw [readDigits_append hread, readDigits_digitChar _ hd, Nat.div_add_mod']

theorem isToken_usText (u : Nat) : isToken (usText u) = true := (decDigits_reads_back u.lt_add_one).2

theorem readUs_usText {u : Nat} (h : p.fits u = true) : readUs p (usText u) = some u := by
  obtain ⟨hread, htoken⟩ := decDigits_reads_back u.lt_add_one
  rw [readUs, usText, if_neg (isToken_iff.mp htoken).1, hread]
  exact if_pos h

/-! ### A call taken apart -/

theorem stripLine_token_append {a : List Char} (ha : isToken a = true) (cs : List Char) :
    stripLine (a ++ cs) = a ++ stripLine cs := by
  obtain ⟨-, ha⟩ := isToken_iff.mp ha
  rw [stripLine, List.takeWhile_append_of_pos (by simpa using fun c hc => (ha c hc).2.1), List.filter_append,
    List.filter_eq_self.mpr (by simpa using fun c hc => (ha c hc).1), stripLine]

/-- The spaces after the commas between operands are dropped. -/
theorem stripLine_args {args : List (List Char)} (h : ∀ a ∈ args, isToken a = true) :
    stripLine ((chars ", ").intercalate args ++ [')']) = [','].intercalate args ++ [')'] := by
  induction args with
  | nil => rfl
  | cons a as ih =>
    obtain ⟨ha, has⟩ := List.forall_mem_cons.mp h
    cases as with
    | nil =>
      rw [List.intercalate_singleton, List.intercalate_singleton, stripLine_token_append ha]
      rfl
    | cons b bs =>
      rw [List.intercalate_cons_cons, List.intercalate_cons_cons, List.append_assoc, List.append_assoc,
        stripLine_token_append ha, List.append_assoc, List.append_assoc, ← ih has]
      rfl

theorem stripLine_callText {name : String} {args : List (List Char)} (hname : isToken (chars name) = true)
    (hargs : ∀ a ∈ args, isToken a = true) :
    stripLine (callText name args) = chars name ++ '(' :: ([','].intercalate args ++ [')']) := by
  rw [callText, List.append_assoc, List.append_assoc, stripLine_token_append hname, ← stripLine_args hargs]
  rfl

theorem splitCommas_ne_nil (cs : List Char) : splitCommas cs ≠ [] := by
  cases cs with
  | nil => exact List.cons_ne_nil _ _
  | cons c cs =>
    rw [splitCommas]
    split
    · exact List.cons_ne_nil _ _
    · split <;> exact List.cons_ne_nil _ _

theorem splitCommas_comma (cs : List Char) : splitCommas (',' :: cs) = [] :: splitCommas cs := by
  rw [splitCommas]
  split
  · next h => exact absurd h (splitCommas_ne_nil cs)
  · next h => rw [if_pos rfl, h]

/-- A token joins the first part of what follows it. -/
theorem splitCommas_append {a cs b : List Char} {bs : List (List Char)} (ha : ∀ c ∈ a, c ≠ ',')
    (hcs : splitCommas cs = b :: bs) : splitCommas (a ++ cs) = (a ++ b) :: bs := by
  induction a with
  | nil => exact hcs
  | cons c a ih =>
    obtain ⟨hc, ha⟩ := List.forall_mem_cons.mp ha
    rw [List.cons_append, splitCommas, ih ha]
    exact if_neg hc

theorem splitCommas_intercalate {args : List (List Char)} (hne : args ≠ []) (h : ∀ a ∈ args, isToken a = true) :
    splitCommas ([','].intercalate args) = args := by
  induction args with
  | nil => exact absurd rfl hne
  | cons a as ih =>
    obtain ⟨ha, has⟩ := List.forall_mem_cons.mp h
    have hcomma : ∀ c ∈ a, c ≠ ',' := fun c hc => ((isToken_iff.mp ha).2 c hc).2.2.1
    cases as with
    | nil => simpa using splitCommas_append (cs := []) hcomma rfl
    | cons b bs =>
      rw [List.intercalate_cons_cons, List.append_assoc, List.singleton_append,
        splitCommas_append hcomma (splitCommas_comma _), List.append_nil, ih (List.cons_ne_nil _ _) has]

theorem intercalate_ne_nil {a : List Char} {as : List (List Char)} (ha : isToken a = true) :
    [','].intercalate (a :: as) ≠ [] := by
  cases as with
  | nil => simpa using (isToken_iff.mp ha).1
  | cons => simp

theorem readArgs_intercalate {args : List (List Char)} (h : ∀ a ∈ args, isToken a = true) :
    readArgs ([','].intercalate args ++ [')']) = some args := by
  rw [readArgs, if_pos List.getLast?_concat, List.dropLast_concat]
  cases args with
  | nil => rfl
  | cons a as =>
    rw [if_neg (intercalate_ne_nil (h a List.mem_cons_self)), splitCommas_intercalate (List.cons_ne_nil _ _) h]

/-- A call reads as its name and its operands. -/
theorem readCommand_callText {name : String} {args : List (List Char)} (hname : isToken (chars name) = true)
    (hargs : ∀ a ∈ args, isToken a = true) :
    readCommand p (callText name args) = readCall p (chars name) args := by
  have hparen : ∀ c ∈ chars name, decide (c ≠ '(') = true := fun c hc =>
    decide_eq_true ((isToken_iff.mp hname).2 c hc).2.2.2
  rw [readCommand, stripLine_callText hname hargs, List.dropWhile_append_of_pos hparen,
    List.takeWhile_append_of_pos hparen]
  simp [readArgs_intercalate hargs]

/-- A call of one operand whose text reads back. -/
theorem readCommand_oneArg {α : Type} {name : String} {a : List Char} {x : α} {read : List Char → Option α}
    {mk : α → Instr} (hcall : readCall p (chars name) [a] = readOneArg read mk [a])
    (hname : isToken (chars name) = true) (ha : isToken a = true) (hread : read a = some x) :
    readCommand p (callText name [a]) = some (mk x) := by
  rw [readCommand_callText hname (List.forall_mem_singleton.mpr ha), hcall, readOneArg, hread]
  rfl

theorem readCommand_arm {ph : Phase} {per nd : Nat} {nlvl : Level} {name : List Char} (hph : phaseText ph = some name)
    (hper : p.fits per = true) (hnd : p.fits nd = true) :
    readCommand p (callText "arm" [name, usText per, usText nd, levelText nlvl]) = some (.arm ph per nd nlvl) := by
  have hcall (args : List (List Char)) : readCall p (chars "arm") args = readArm p args := rfl
  rw [readCommand_callText rfl (by simp [isToken_phaseText hph, isToken_usText, isToken_levelText]), hcall]
  simp only [readArm, readPhase_phaseText hph, readUs_usText hper, readUs_usText hnd, readLevel_levelText]

/-! ### The statement -/

/-- Settles O5: a call reads as its name and operands, the name finds the command, and each operand reads back. -/
theorem textReadsBack : Obligations.TextReadsBack := by
  intro p i line hfits htext
  cases i with
  | waitUs imm | waitMs imm | tsetp imm =>
    cases htext
    exact readCommand_oneArg rfl rfl (isToken_usText imm) (readUs_usText hfits)
  | drive l =>
    cases htext
    exact readCommand_oneArg rfl rfl (isToken_levelText l) (readLevel_levelText l)
  | setdir d =>
    cases htext
    exact readCommand_oneArg rfl rfl (isToken_directionText d) (readDirection_directionText d)
  | arm ph per nd nlvl =>
    obtain ⟨name, hph, rfl⟩ := Option.map_eq_some_iff.mp htext
    obtain ⟨hper, hnd⟩ := Bool.and_eq_true_iff.mp hfits
    exact readCommand_arm hph hper hnd
  | sample | reset | poll | waitdone | tstart | tien | tclrp | tqp =>
    cases htext
    exact readCommand_callText rfl nofun

end Sys2Proof
end

section
/-! PROOF. Which words and commands are refused, and what a result is: the statements of 30_encoding about steps. -/

namespace Sys2Proof.Machine

variable {s t : State}

/-! ### Words and commands that are refused -/

/-- With the script at its end and no interrupt requested, accepting the presented word is the step. -/
theorem step_of_accept {n : Nat} (h : quiet s) (ha : fgTurn s = .accept n) : step s = acceptWord n s := by
  obtain ⟨ht, hq⟩ := h
  have hs : s.onTurn = s := by rw [State.onTurn, ht, List.tail_nil, ← ht, setTurns_self]
  rw [step_of_no_irq hq (.inl (by rw [State.turn, ht]; rfl)), hs, fgOrTick, ha]

/-- A word that does not decode is refused for the decoder's reason, and the port is not ready for it (92 D16). -/
theorem refused_of_decode_error {n : Nat} {e : DecodeError} (h : quiet s) (ha : fgTurn s = .accept n)
    (hd : decode s.cfg (BitVec.ofNat _ n) = .error e) :
    step s = .refused (refusalOf e) ∧ s.cmdReady = false := by
  have hr : acceptWord n s = .refused (refusalOf e) := by rw [acceptWord, hd]
  exact ⟨(step_of_accept h ha).trans hr, by rw [State.cmdReady, ha]; simp only [hr]⟩

/-- Only a well-formed command is accepted (30_encoding R64, 43 R121). -/
theorem Accepts.wf {i : Instr} (h : Accepts s i t) : i.wf = true := by
  cases h with
  | waitUs hi | tsetp hi => exact decide_eq_true hi
  | arm _ hper hph =>
    obtain ⟨rfl, hnd, rfl⟩ | rfl := hph
    · simp [Instr.wf, Instr.armOperandsOk, hper, hnd]
    · simp [Instr.wf, Instr.armOperandsOk, hper]
  | _ => rfl

/-! ### A flag as a result -/

theorem respOfFlag_eq (b : Bool) : respOfFlag b = if b then 1#3 else 0#3 := by cases b <;> rfl

/-! ### The statements -/

/-- Settles O7: the decoder's two errors, each with its refusal. -/
theorem illegalWordsRefused : Obligations.IllegalWordsRefused := by
  rintro s n w hquiet hacc rfl
  refine ⟨fun hop => ?_, fun op hop hm => ?_⟩
  · exact refused_of_decode_error hquiet hacc (decode_of_unknown_op hop)
  · exact refused_of_decode_error hquiet hacc ((decode_of_op hop).trans (if_neg hm))

/-- Settles O8: a command that is answered is well-formed, and the block has no fault. -/
theorem illFormedCommandsRefused : Obligations.IllFormedCommandsRefused := by
  intro i s hwf
  cases h : exec i s with
  | next t => exact absurd (exec_next h).wf (by simp [hwf])
  | fault f => cases f
  | refused r => exact ⟨r, rfl⟩

/-- Settles O12: each command responds with its result, and `RESET` with the presence bit (42 R112). -/
theorem resultsInResp : Obligations.ResultsInResp := by
  intro s
  refine ⟨fun hd => ?sample, fun hd => ?sampleRefused, rfl, ?tqp, fun hstep => ?presence⟩
  case sample =>
    show execSample s = _
    rw [execSample, sampleOp_ok.mpr ⟨hd, rfl⟩]
    rfl
  case sampleRefused =>
    show execSample s = _
    simp [execSample, sampleOp, hd]
  case tqp => rw [← respOfFlag_eq]; rfl
  case presence =>
    have hb9 : microStep s = .next (microB9 s) := by rw [microStep, hstep]
    rw [hb9, microB9, respOfFlag_eq, presence]
    simp only [decide_eq_true_eq]
    rfl

end Sys2Proof.Machine
end

section
/-! PROOF. The single steps of the Delay Engine: admissions, `M1`, `W0`, `W1`, and the period `REPROGRAM` starts. -/

namespace Sys2Proof.Machine

variable {s t : State}

/-! ### Admissions and micro-operations -/

theorem goto_of_step {l : Label} (h : s.fg.step = l) : goto l s = s := by
  subst h
  rfl

theorem microStep_waitStart {site : WaitSite} (hst : s.fg.step = .w0 site) (hd : waitDuration site s ≠ 0) :
    microStep s = .next (goto (.w1 site) { clearTick s with tmr := s.tmr.withPeriod (waitDuration site s) }) := by
  rw [microStep, hst]
  exact waitStart_next.mpr ⟨hd, rfl⟩

theorem microStep_waitExit {site : WaitSite} (hst : s.fg.step = .w1 site) (htick : s.de.tick = true) :
    microStep s = .next (waitExit site s) := by
  rw [microStep, hst]
  exact congrArg Host.Outcome.next (if_pos htick)

theorem microStep_waitSleep {site : WaitSite} (hst : s.fg.step = .w1 site) (htick : s.de.tick = false) :
    microStep s = .next (sleep s) := by
  rw [microStep, hst]
  show Host.Outcome.next (waitCheck site s) = _
  rw [waitCheck, htick, goto_of_step (s := sleep s) hst]
  rfl

theorem microStep_repeat (hst : s.fg.step = .m1) :
    microStep s = .next (if s.fg.cnt = 0 then finish s else goto (.w0 .waitMs) (setRepeat (s.fg.cnt - 1) s)) := by
  rw [microStep, hst]
  rfl

/-- The unit of `WAIT_MS` is a legal period (92 D2). -/
theorem tMsUs_ne_zero (h : s.cfg.literalsFit = true) : s.cfg.tMsUs ≠ 0 :=
  (legalPeriod_iff.mp (waitDuration_legal (site := .waitMs) h nofun)).1

/-- Settles O13: the two checks in their order, then `W0`. -/
theorem waitUsAdmission : Obligations.WaitUsAdmission := by
  intro imm s
  refine ⟨fun hi => ?zero, fun hi hp => ?inUse, fun hi hp => ?admitted⟩
  case zero =>
    have ha : admitWaitUs imm s = some .zeroPeriod := if_pos hi
    show guarded (admitWaitUs imm s) _ = _
    rw [ha, guarded]
  case inUse =>
    have ha : admitWaitUs imm s = some .timerInUse := by simp [admitWaitUs, Descriptor.active, hi, hp]
    show guarded (admitWaitUs imm s) _ = _
    rw [ha, guarded]
  case admitted => exact guarded_next.mpr ⟨admitWaitUs_eq_none.mpr ⟨hi, hp⟩, waitStart_next.mpr ⟨hi, rfl⟩⟩

/-- Settles O14: one check, then `M0`. -/
theorem waitMsAdmission : Obligations.WaitMsAdmission := by
  intro imm s
  refine ⟨fun hp => ?inUse, fun hp => ?admitted⟩
  case inUse =>
    have ha : admitWaitMs s = some .timerInUse := by simp [admitWaitMs, Descriptor.active, hp]
    show guarded (admitWaitMs s) _ = _
    rw [ha, guarded]
  case admitted => exact guarded_next.mpr ⟨admitWaitMs_eq_none.mpr hp, rfl⟩

/-- Settles O15: the two branches of `M1`, and the `W0` of its wait. -/
theorem waitMsRepeats : Obligations.WaitMsRepeats := by
  intro s hlit hquiet hmicro
  rw [step_of_micro hquiet hmicro]
  refine ⟨fun hst hc => ?finish, fun hst hc => ?again, fun hst => ?start⟩
  case finish => rw [microStep_repeat hst, if_pos hc]; rfl
  case again => rw [microStep_repeat hst, if_neg hc]; rfl
  case start => rw [microStep_waitStart hst (tMsUs_ne_zero hlit)]; rfl

/-- Settles O16: the check sleeps at its own label, or goes where its place leads. -/
theorem waitChecksFlag : Obligations.WaitChecksFlag := by
  intro site s hquiet hmicro hst
  rw [step_of_micro hquiet hmicro]
  refine ⟨microStep_waitSleep hst, ?_, ?_, ?_, ?_, ?_⟩ <;>
    · rintro htick rfl
      exact microStep_waitExit hst htick

/-! ### The TICK step as an equation -/

/-- The timer one microsecond on in a period of `p`: counted up, or rolled over with the update event (60 R152, R153). -/
def Timer.count (tm : Timer) (p : Nat) : Timer :=
  if p ≤ tm.cnt + 1 then { tm with cnt := 0, pend := tm.pend || tm.uevEn } else { tm with cnt := tm.cnt + 1 }

theorem Timer.count_of_lt {tm : Timer} {p : Nat} (h : tm.cnt + 1 < p) : tm.count p = { tm with cnt := tm.cnt + 1 } :=
  if_neg (by omega)

theorem Timer.count_of_le {tm : Timer} {p : Nat} (h : p ≤ tm.cnt + 1) :
    tm.count p = { tm with cnt := 0, pend := tm.pend || tm.uevEn } :=
  if_pos h

theorem tick_of_stopped (h : s.tmr.run = false) : tick s = .next (passMicrosecond s) := by
  simp [tick, countTick, h]

theorem tick_of_running {p : Nat} (hrun : s.tmr.run = true) (hp : s.tmr.period = some p) :
    tick s = .next { passMicrosecond s with tmr := s.tmr.count p } := by
  by_cases hc : p ≤ s.tmr.cnt + 1
  · rw [Timer.count_of_le hc]
    cases hu : s.tmr.uevEn <;> simp [tick, countTick, hrun, hp, hc, hu, expiry, setPend, setCnt, passMicrosecond]
  · rw [Timer.count_of_lt (by omega)]
    simp [tick, countTick, hrun, hp, hc, setCnt, passMicrosecond]

/-! ### The period `REPROGRAM` starts -/

theorem ticks_succ_last (n : Nat) (s : State) : ticks (n + 1) s = andThen (ticks n s) tick := by
  induction n generalizing s with
  | zero => simp only [ticks, andThen]; cases tick s <;> rfl
  | succ n ih =>
    have hfirst (m : Nat) : ticks (m + 1) s = andThen (tick s) (ticks m) := rfl
    rw [hfirst (n + 1), hfirst n]
    cases tick s with
    | next u => exact ih u
    | fault | refused => rfl

/-- A running timer counts up to the end of its period, and nothing else of it moves (60 R152). -/
theorem ticks_count {p k : Nat} (hrun : s.tmr.run = true) (hp : s.tmr.period = some p) (hk : s.tmr.cnt + k < p) :
    ∃ u, ticks k s = .next u ∧ u.tmr = { s.tmr with cnt := s.tmr.cnt + k } := by
  induction k with
  | zero => exact ⟨s, rfl, rfl⟩
  | succ k ih =>
    obtain ⟨u, hu, htmr⟩ := ih (by omega)
    have ht := tick_of_running (s := u) (by rw [htmr]; exact hrun) (by rw [htmr]; exact hp)
    refine ⟨_, by rw [ticks_succ_last, hu, andThen, ht], ?_⟩
    show u.tmr.count p = _
    rw [Timer.count_of_lt (by rw [htmr]; exact hk), htmr]
    rfl

/-- The TICK step that ends the period brings the update event (60 R153). -/
theorem ticks_expire {p : Nat} (hrun : s.tmr.run = true) (hp : s.tmr.period = some p) (hc : s.tmr.cnt = 0)
    (hp0 : p ≠ 0) : ∃ u, ticks p s = .next u ∧ u.tmr = { s.tmr with cnt := 0, pend := s.tmr.pend || s.tmr.uevEn } := by
  obtain ⟨k, rfl⟩ := Nat.exists_eq_succ_of_ne_zero hp0
  obtain ⟨u, hu, htmr⟩ := ticks_count (k := k) hrun hp (by omega)
  have ht := tick_of_running (s := u) (by rw [htmr]; exact hrun) (by rw [htmr]; exact hp)
  refine ⟨_, by rw [ticks_succ_last, hu, andThen, ht], ?_⟩
  show u.tmr.count _ = _
  rw [Timer.count_of_le (by rw [htmr]; show k + 1 ≤ s.tmr.cnt + k + 1; omega), htmr]

/-- Settles O36: from the counter at 0 the timer counts `p` TICK steps, and the last brings the expiry. -/
theorem reprogramStartsFreshPeriod : Obligations.ReprogramStartsFreshPeriod := by
  intro p s
  refine ⟨fun hp => if_pos hp, fun hp => ⟨_, reprogram_of_ne_zero hp, rfl, fun hrun => ⟨fun k hk => ?_, ?_⟩⟩⟩
  · obtain ⟨u, hu, htmr⟩ := ticks_count (s := { s with tmr := s.tmr.withPeriod p }) hrun rfl
      (show 0 + k < p by omega)
    exact ⟨u, hu, by rw [htmr]; exact Nat.zero_add k, by rw [htmr]; rfl⟩
  · obtain ⟨u, hu, htmr⟩ := ticks_expire (s := { s with tmr := s.tmr.withPeriod p }) hrun rfl rfl hp
    exact ⟨u, hu, by rw [htmr], by rw [htmr]; exact Bool.or_true _⟩

end Sys2Proof.Machine
end

section
/-! PROOF. How a wait runs: what a step inside it can do, and how safety and progress add up over a run. -/

namespace Sys2Proof.Machine

variable {s t : State}

/-! ### The script along a run -/

/-- A step takes one turn off the script, whatever the turn is. -/
theorem step_turns (h : step s = .next t) : t.turns = s.turns.tail := by
  cases h ▸ step_move s with
  | ext | wake | cmd | rst => rfl
  | own _ m =>
    generalize ho : Host.Outcome.next t = o at m
    cases m with
    | irq => exact (takeInterrupt_sameOutside ho.symm).1.turns
    | refuse => cases ho
    | accept => exact (exec_sameTime ho.symm).turns
    | micro => exact (microStep_sameTime ho.symm).turns
    | time => exact (tick_sameOutside ho.symm).1.turns

theorem turns_ne_nil_of_turn (h : s.turn ≠ .go) : s.turns ≠ [] := by
  intro h0
  exact h (by rw [State.turn, h0]; rfl)

theorem turn_ne_rst_of_noRst (h : s.noRst = true) : s.turn ≠ .rst := by
  intro hr
  have hmem : Turn.rst ∉ s.turns := of_decide_eq_true h
  cases hts : s.turns with
  | nil => rw [State.turn, hts] at hr; cases hr
  | cons u us =>
    rw [State.turn, hts] at hr
    cases hr
    exact hmem (by rw [hts]; exact List.mem_cons_self)

theorem noRst_of_suffix (hs : t.turns <:+ s.turns) (h : s.noRst = true) : t.noRst = true :=
  decide_eq_true fun hm => of_decide_eq_true h (hs.subset hm)

theorem noRst_of_step (h : s.noRst = true) (hst : step s = .next t) : t.noRst = true :=
  noRst_of_suffix (step_turns hst ▸ List.tail_suffix _) h

/-! ### Safety and progress over a run -/

theorem steps_one (h : step s = .next t) : steps 1 s = .next t := andThen_next.mpr ⟨t, h, rfl⟩

/-- What every step but a hardware reset keeps holds along a run whose script has no hardware reset. -/
theorem steps_keep {P : State → Prop} (hstep : ∀ s t, s.turn ≠ .rst → P s → step s = .next t → P t) {n : Nat}
    (hrst : s.noRst = true) (hs : P s) (h : steps n s = .next t) : P t := by
  induction n generalizing s with
  | zero => cases h; exact hs
  | succ n ih =>
    obtain ⟨u, hu, ht⟩ := andThen_next.mp h
    exact ih (noRst_of_step hrst hu) (hstep s u (turn_ne_rst_of_noRst hrst) hs hu) ht

/-- The same where the property also keeps the step from being refused: the run goes on for ever. -/
theorem steps_forever {P : State → Prop} (hstep : ∀ s, s.turn ≠ .rst → P s → ∃ t, step s = .next t ∧ P t)
    (hrst : s.noRst = true) (hs : P s) (n : Nat) : ∃ t, steps n s = .next t ∧ P t := by
  induction n generalizing s with
  | zero => exact ⟨s, rfl, hs⟩
  | succ n ih =>
    obtain ⟨u, hu, hP⟩ := hstep s (turn_ne_rst_of_noRst hrst) hs
    obtain ⟨t, ht, hPt⟩ := ih (noRst_of_step hrst hu) hP
    exact ⟨t, andThen_next.mpr ⟨u, hu, ht⟩, hPt⟩

/-- Progress: when every step from `P` reaches `Q`, or stays in `P` with `μ` smaller, the run reaches `Q` through `P`. -/
theorem steps_until {P Q : State → Prop} (μ : State → Nat)
    (hstep : ∀ s, P s → ∃ t, step s = .next t ∧ (Q t ∨ (P t ∧ μ t < μ s))) (hs : P s) :
    ∃ n t, steps n s = .next t ∧ Q t ∧ ∀ k < n, ∃ u, steps k s = .next u ∧ P u := by
  generalize hm : μ s = m
  induction m using Nat.strong_induction_on generalizing s with
  | _ m ih =>
    obtain ⟨u, hu, hQ | ⟨hP, hlt⟩⟩ := hstep s hs
    · refine ⟨1, u, andThen_next.mpr ⟨u, hu, rfl⟩, hQ, fun k hk => ⟨s, ?_, hs⟩⟩
      obtain rfl : k = 0 := by omega
      rfl
    · obtain ⟨n, t, ht, hQ, hthrough⟩ := ih (μ u) (hm ▸ hlt) hP rfl
      refine ⟨n + 1, t, andThen_next.mpr ⟨u, hu, ht⟩, hQ, fun k hk => ?_⟩
      cases k with
      | zero => exact ⟨s, rfl, hs⟩
      | succ k =>
        obtain ⟨v, hv, hPv⟩ := hthrough k (by omega)
        exact ⟨v, andThen_next.mpr ⟨u, hu, hv⟩, hPv⟩

/-! ### Who can move while the foreground is at a `W1` -/

/-- The same but for the inputs and `fg.sleeping`. -/
structure SameBlock (s t : State) : Prop where
  ld : t.ld = s.ld
  tmr : t.tmr = s.tmr
  de : t.de = s.de
  td : t.td = s.td
  resp : t.resp = s.resp
  fg : (wake t).fg = (wake s).fg
  nowUs : t.nowUs = s.nowUs
  irqAge : t.irqAge = s.irqAge
  turns : t.turns = s.turns
  cfg : t.cfg = s.cfg

/-- What a step short of a hardware reset does while the foreground is at the `W1` of `site`: an ENV step, the
handler, the check of the flag, or a microsecond; a requested interrupt lets a microsecond pass only where the script
puts it off and it is not due (60 R155). -/
inductive WaitMove (site : WaitSite) (s : State) : Host.Outcome State Fault Refusal → Prop where
  | env {t : State} (hturns : s.turns ≠ []) (same : SameBlock s.onTurn t)
      (hsleep : t.fg.sleeping = true → s.fg.sleeping = true) : WaitMove site s (.next t)
  | irq (hi : s.irq = true) : WaitMove site s (takeInterrupt s.onTurn)
  | sleep {t : State} (htick : s.de.tick = false) (hawake : s.fg.sleeping = false) (same : SameBlock s.onTurn t)
      (hsleep : t.fg.sleeping = true) : WaitMove site s (.next t)
  | exit (htick : s.de.tick = true) : WaitMove site s (.next (waitExit site s.onTurn))
  | time (hb : fgTurn s = .blocked) (hq : s.irq = true → s.turn = .hold ∧ s.irqAge < s.cfg.irqLatUs) :
      WaitMove site s (tick s.onTurn)

theorem step_waitMove {site : WaitSite} (hop : s.fg.op ≠ none) (hst : s.fg.step = .w1 site) (hrst : s.turn ≠ .rst) :
    WaitMove site s (step s) := by
  by_cases hirq : s.irq = true ∧ s.turn = .go
  · rw [requestedIrqGoesFirst s hirq.1 (.inl hirq.2)]
    exact .irq hirq.1
  have hmove := step_move s
  generalize step s = o at hmove
  cases hmove with
  | ext b h => exact .env (turns_ne_nil_of_turn (by simp [h])) (by constructor <;> rfl) id
  | wake h => exact .env (turns_ne_nil_of_turn (by simp [h])) (by constructor <;> rfl) nofun
  | cmd w h => exact .env (turns_ne_nil_of_turn (by simp [h])) (by constructor <;> rfl) id
  | rst h => exact absurd h hrst
  | own hturn m =>
    cases m with
    | irq hi => exact .irq hi
    | refuse w h | accept w h => exact absurd (fgTurn_accept.mp h).1 hop
    | micro h =>
      obtain ⟨-, hawake, -, -⟩ := fgTurn_micro.mp h
      cases htick : s.de.tick with
      | true =>
        rw [microStep_waitExit (s := s.onTurn) hst htick]
        exact .exit htick
      | false =>
        rw [microStep_waitSleep (s := s.onTurn) hst htick]
        exact .sleep htick hawake (by constructor <;> rfl) rfl
    | time hb hq => exact .time hb fun hi => ⟨hturn.resolve_left fun hgo => hirq ⟨hi, hgo⟩, hq hi⟩

end Sys2Proof.Machine
end

section
/-! PROOF. No wait ends early, its flag is clear until its expiry, and without an interrupt it never ends: the safety
statements of 40_delay_engine. -/

namespace Sys2Proof.Machine

variable {s t : State}

/-! ### No wait ends early -/

/-- The foreground is at the `W1` of a `WAIT_US` with the flag clear, the timer's period that of the wait. -/
structure Waiting (d : Nat) (s : State) : Prop where
  op : s.fg.op = some .waitUs
  step : s.fg.step = .w1 .waitUs
  tick : s.de.tick = false
  period : s.tmr.period = some d

theorem Waiting.of_sameBlock {d : Nat} (h : Waiting d s) (hs : SameBlock s.onTurn t) : Waiting d t :=
  ⟨(congrArg Foreground.op hs.fg).trans h.op, (congrArg Foreground.step hs.fg).trans h.step,
    (congrArg DelayEngine.tick hs.de).trans h.tick, (congrArg Timer.period hs.tmr).trans h.period⟩

theorem Waiting.of_tick {d : Nat} (h : Waiting d s) (ht : Machine.tick s.onTurn = .next t) : Waiting d t := by
  have hm := tick_microsecond ht
  exact ⟨(congrArg Foreground.op hm.fg).trans h.op, (congrArg Foreground.step hm.fg).trans h.step,
    (congrArg DelayEngine.tick (tick_de ht)).trans h.tick, hm.period.trans h.period⟩

/-- The state an admitted `WAIT_US` starts its wait in. -/
theorem waiting_of_exec {d : Nat} (h : exec (.waitUs d) s = .next t) :
    Waiting d t ∧ t.nowUs = s.nowUs ∧ t.turns = s.turns ∧ t.tmr = s.tmr.withPeriod d := by
  cases exec_next h with
  | waitUs => exact ⟨⟨rfl, rfl, rfl, rfl⟩, rfl, rfl, rfl⟩

/-- A wait started at `t0` before its first expiry: nothing pending, the counter not ahead of the clock. -/
structure BeforeExpiry (d t0 : Nat) (s : State) : Prop extends Waiting d s where
  pend : s.tmr.pend = false
  clock : t0 + s.tmr.cnt ≤ s.nowUs

theorem BeforeExpiry.of_sameBlock {d t0 : Nat} (h : BeforeExpiry d t0 s) (hs : SameBlock s.onTurn t) :
    BeforeExpiry d t0 t := by
  refine ⟨h.toWaiting.of_sameBlock hs, ?_, ?_⟩ <;> rw [hs.tmr]
  · exact h.pend
  · rw [hs.nowUs]
    exact h.clock

/-- A microsecond brings the first expiry only when it is the last of the duration. -/
theorem BeforeExpiry.of_tick {d t0 : Nat} (h : BeforeExpiry d t0 s) (ht : Machine.tick s.onTurn = .next t) :
    BeforeExpiry d t0 t ∨ t0 + d ≤ t.nowUs := by
  have hw := h.toWaiting.of_tick ht
  have hnow : t.nowUs = s.nowUs + 1 := (tick_sameOutside ht).2
  have hclock := h.clock
  rcases countTick_next ht with ⟨-, rfl⟩ | ⟨p, -, hp, ⟨hc, rfl⟩ | ⟨-, rfl⟩⟩
  · exact .inl ⟨hw, h.pend, Nat.le_succ_of_le hclock⟩
  · obtain rfl : d = p := Option.some.inj (h.period.symm.trans hp)
    right
    rw [hnow]
    exact (Nat.add_le_add_left hc t0).trans (Nat.succ_le_succ hclock)
  · exact .inl ⟨hw, h.pend, Nat.succ_le_succ hclock⟩

/-- A wait before its first expiry stays there, or its duration has passed. -/
theorem BeforeExpiry.step_next {d t0 : Nat} (h : BeforeExpiry d t0 s) (hrst : s.turn ≠ .rst)
    (hst : Machine.step s = .next t) : BeforeExpiry d t0 t ∨ t0 + d ≤ t.nowUs := by
  have hmove := step_waitMove (by simp [h.op]) h.step hrst
  rw [hst] at hmove
  generalize ho : Host.Outcome.next t = o at hmove
  cases hmove with
  | env _ same => cases ho; exact .inl (h.of_sameBlock same)
  | sleep _ _ same => cases ho; exact .inl (h.of_sameBlock same)
  | irq hi => simp [State.irq, h.pend] at hi
  | exit htick => cases h.tick.symm.trans htick
  | time => exact h.of_tick ho.symm

theorem nowUs_le_of_step (hrst : s.turn ≠ .rst) (h : step s = .next t) : s.nowUs ≤ t.nowUs := by
  rcases timePassesOnlyWhenBlocked s t h hrst with hn | ⟨hn, -⟩ <;> omega

/-- As long as an admitted `wait(d)` has not lasted `d` microseconds it is before its first expiry (40 R83, R87). -/
theorem beforeExpiry_or_over {d n : Nat} {s₁ : State} (hpend : s.tmr.pend = false) (hrst : s.noRst = true)
    (h : exec (.waitUs d) s = .next s₁) (hn : steps n s₁ = .next t) :
    BeforeExpiry d s.nowUs t ∨ s.nowUs + d ≤ t.nowUs := by
  obtain ⟨hw, hnow, hturns, htmr⟩ := waiting_of_exec h
  refine steps_keep (P := fun u => BeforeExpiry d s.nowUs u ∨ s.nowUs + d ≤ u.nowUs) ?_
    (noRst_of_suffix (hturns ▸ List.suffix_rfl) hrst) (.inl ⟨hw, by rw [htmr]; exact hpend, ?_⟩) hn
  · intro u v hturn hu hst
    exact hu.elim (fun hb => hb.step_next hturn hst) fun ho => .inr (ho.trans (nowUs_le_of_step hturn hst))
  · rw [htmr, hnow]
    exact le_rfl

/-- Settles O17: before its first expiry the command is still in execution. -/
theorem waitNeverEarly : Obligations.WaitNeverEarly := by
  intro d s s₁ hpend hrst h n t hn hop
  exact (beforeExpiry_or_over hpend hrst h hn).resolve_left fun hb => hop hb.op

/-- Settles O21: before the first expiry `DE.tick` is clear. -/
theorem tickClearUntilExpiry : Obligations.TickClearUntilExpiry := by
  intro d s s₁ hpend hrst h n t hn hlt
  exact ((beforeExpiry_or_over hpend hrst h hn).resolve_right (by omega)).tick

/-! ### A wait without an interrupt never ends -/

/-- The timer can bring no interrupt: it is not enabled, or the timer stands with nothing pending. -/
def Timer.mute (tm : Timer) : Prop := tm.ie = false ∨ (tm.run = false ∧ tm.pend = false)

theorem irq_of_mute (h : s.tmr.mute) : s.irq = false := by
  rcases h with hie | ⟨-, hpend⟩ <;> simp [State.irq, *]

/-- A microsecond brings no interrupt to a timer that can bring none. -/
theorem mute_of_tick (h : s.tmr.mute) (ht : tick s.onTurn = .next t) : t.tmr.mute := by
  rcases h with hie | ⟨hrun, hpend⟩
  · exact .inl ((tick_microsecond ht).enables.2.trans hie)
  · rw [tick_of_stopped (s := s.onTurn) hrun] at ht
    cases ht
    exact .inr ⟨hrun, hpend⟩

/-- A wait on such a timer takes a next step, and it is still that wait. -/
theorem Waiting.step_of_mute {d : Nat} (h : Waiting d s) (hm : s.tmr.mute) (hrst : s.turn ≠ .rst) :
    ∃ t, Machine.step s = .next t ∧ Waiting d t ∧ t.tmr.mute := by
  have hmove := step_waitMove (by simp [h.op]) h.step hrst
  have hidle {t : State} (hs : SameBlock s.onTurn t) : Waiting d t ∧ t.tmr.mute :=
    ⟨h.of_sameBlock hs, by rw [hs.tmr]; exact hm⟩
  generalize Machine.step s = o at hmove
  cases hmove with
  | env _ same => exact ⟨_, rfl, hidle same⟩
  | sleep _ _ same => exact ⟨_, rfl, hidle same⟩
  | irq hi => cases (irq_of_mute hm).symm.trans hi
  | exit htick => cases h.tick.symm.trans htick
  | time =>
    obtain ⟨t, ht⟩ := tick_total (s := s.onTurn) fun _ => by simp [h.period]
    exact ⟨t, ht, h.of_tick ht, mute_of_tick hm ht⟩

/-- Settles O22: the wait stays a wait in every step. -/
theorem waitHangsWithoutInterrupt : Obligations.WaitHangsWithoutInterrupt := by
  intro d s s₁ hrst hm h n
  obtain ⟨hw, -, hturns, htmr⟩ := waiting_of_exec h
  obtain ⟨t, ht, hwt, -⟩ := steps_forever (P := fun u => Waiting d u ∧ u.tmr.mute)
    (fun u hturn hu => hu.1.step_of_mute hu.2 hturn) (noRst_of_suffix (hturns ▸ List.suffix_rfl) hrst)
    ⟨hw, by rw [htmr]; exact hm⟩ n
  exact ⟨t, ht, hwt.op, hwt.tick⟩

end Sys2Proof.Machine
end

section
/-! PROOF. Every wait of a running timer with its interrupt enabled ends, and when: the timing contract of
40_delay_engine. -/

namespace Sys2Proof.Machine

variable {s t b : State} {site : WaitSite}

/-! ### The states of a wait -/

/-- A wait from `b` can be relied on to end: a command runs, awake, on a running timer with its interrupt enabled, no
expiry pending and the descriptor inert (40 R83). -/
structure ReadyToWait (b : State) : Prop where
  op : b.fg.op ≠ none
  awake : awake b
  done : b.td.phase = .done
  run : b.tmr.run = true
  ie : b.tmr.ie = true
  pend : b.tmr.pend = false
  noRst : b.noRst = true

/-- The most TICK steps a run from `b` can put an interrupt off by: none when the script is at its end (60 R155). -/
def irqSlack (b : State) : Nat := if b.turns = [] then 0 else b.cfg.irqLatUs

/-- Where the timer, the flag and the clock are in a wait of `d` microseconds whose `W0` was in `b`: before the
expiry, at the request, after the handler. -/
inductive WaitClock (d : Nat) (b t : State) : Prop where
  | counting (c : Nat) (hc : c < d) (htmr : t.tmr = { b.tmr.withPeriod d with cnt := c }) (htick : t.de.tick = false)
      (hnow : t.nowUs = b.nowUs + c)
  | pending (c : Nat) (hc : c ≤ t.irqAge) (htmr : t.tmr = { b.tmr.withPeriod d with cnt := c, pend := true })
      (htick : t.de.tick = false) (hage : t.irqAge ≤ irqSlack b) (hnow : t.nowUs = b.nowUs + d + t.irqAge)
  | ticked (c late : Nat) (hc : c ≤ late) (hlate : late ≤ irqSlack b)
      (htmr : t.tmr = { b.tmr.withPeriod d with cnt := c }) (htick : t.de.tick = true) (hsleep : t.fg.sleeping = false)
      (hnow : t.nowUs = b.nowUs + d + late)

/-- `t` is a state of the wait at `site` whose `W0` was in `b`. -/
structure InWait (site : WaitSite) (b t : State) : Prop where
  fg : (wake t).fg = (goto (.w1 site) b).fg
  td : t.td = b.td
  ld : t.ld = b.ld
  resp : t.resp = b.resp
  cfg : t.cfg = b.cfg
  turns : t.turns <:+ b.turns
  clock : WaitClock (waitDuration site b) b t

/-- What a wait from `b` leaves for what follows it, the handler `late` microseconds after the expiry. -/
structure WaitOver (site : WaitSite) (b t : State) (late : Nat) : Prop where
  fg : t.fg = (goto (.w1 site) b).fg
  td : t.td = b.td
  ld : t.ld = b.ld
  resp : t.resp = b.resp
  cfg : t.cfg = b.cfg
  turns : t.turns <:+ b.turns
  tick : t.de.tick = true
  late_le : late ≤ irqSlack b
  nowUs : t.nowUs = b.nowUs + waitDuration site b + late
  tmr : ∃ c ≤ late, t.tmr = { b.tmr.withPeriod (waitDuration site b) with cnt := c }

theorem inWait_of_waitStart (hr : ReadyToWait b) (h : waitStart site b = .next t) : InWait site b t := by
  obtain ⟨hd, rfl⟩ := waitStart_next.mp h
  obtain ⟨hsleep, -, -⟩ := hr.awake
  refine ⟨?_, rfl, rfl, rfl, rfl, List.suffix_rfl, .counting 0 (Nat.pos_of_ne_zero hd) rfl rfl rfl⟩
  simp [← hsleep]

theorem InWait.op (h : InWait site b t) : t.fg.op = b.fg.op := (congrArg Foreground.op h.fg :)

theorem InWait.step (h : InWait site b t) : t.fg.step = .w1 site := (congrArg Foreground.step h.fg :)

theorem InWait.nowUs_le (h : InWait site b t) : t.nowUs ≤ b.nowUs + waitDuration site b + irqSlack b := by
  cases h.clock <;> omega

theorem InWait.over (h : InWait site b t) (htick : t.de.tick = true) : ∃ late, WaitOver site b t late := by
  cases h.clock with
  | counting _ _ _ h0 | pending _ _ _ h0 => cases h0.symm.trans htick
  | ticked c late hc hlate htmr _ hsleep hnow =>
    refine ⟨late, ?_, h.td, h.ld, h.resp, h.cfg, h.turns, htick, hlate, hnow, c, hc, htmr⟩
    rw [← h.fg, wake_fg, ← hsleep]

/-! ### What each step of a wait leaves -/

theorem InWait.of_sameBlock (h : InWait site b s) (hs : SameBlock s.onTurn t)
    (hsleep : s.de.tick = true → s.fg.sleeping = false → t.fg.sleeping = false) : InWait site b t := by
  have hturns : t.turns = s.turns.tail := hs.turns
  refine ⟨hs.fg.trans h.fg, hs.td.trans h.td, hs.ld.trans h.ld, hs.resp.trans h.resp, hs.cfg.trans h.cfg,
    hturns ▸ (List.tail_suffix _).trans h.turns, ?_⟩
  have htmr := hs.tmr
  have hde := congrArg DelayEngine.tick hs.de
  have hnow := hs.nowUs
  have hage : t.irqAge = s.irqAge := hs.irqAge
  cases h.clock with
  | counting c hc h1 h2 h3 => exact .counting c hc (htmr.trans h1) (hde.trans h2) (hnow.trans h3)
  | pending c hc h1 h2 h3 h4 =>
    exact .pending c (hage ▸ hc) (htmr.trans h1) (hde.trans h2) (hage ▸ h3) (hage ▸ hnow.trans h4)
  | ticked c late hc hlate h1 h2 h3 h4 =>
    exact .ticked c late hc hlate (htmr.trans h1) (hde.trans h2) (hsleep h2 h3) (hnow.trans h4)

/-- The script moving on leaves the wait as it is. -/
theorem InWait.onTurn (h : InWait site b t) : InWait site b t.onTurn :=
  h.of_sameBlock (by constructor <;> rfl) fun _ => id

/-- The handler ends the counting: the descriptor is inert, so it does its prologue and nothing else (60 R157). -/
theorem InWait.of_irq (hr : ReadyToWait b) (h : InWait site b s) (hi : s.irq = true) :
    s.de.tick = false ∧ ∃ t, takeInterrupt s.onTurn = .next t ∧ InWait site b t ∧ t.de.tick = true ∧
      t.nowUs = s.nowUs ∧ t.turns = s.turns.tail := by
  obtain ⟨hpend, -⟩ := (Bool.and_eq_true _ _).mp hi
  obtain ⟨-, -, hyield⟩ := hr.awake
  have hdone : s.onTurn.td.phase = .done := (congrArg Descriptor.phase h.td).trans hr.done
  cases h.clock with
  | counting _ _ htmr | ticked _ _ _ _ htmr =>
    rw [htmr] at hpend
    cases hr.pend.symm.trans hpend
  | pending c hc htmr htick hage hnow =>
    refine ⟨htick, settleIrq (irqPrologue s.onTurn), ?_,
      ⟨?_, h.td, h.ld, h.resp, h.cfg, h.onTurn.turns, ?_⟩, rfl, rfl, rfl⟩
    · rw [takeInterrupt, smStep_of_done hdone]
      rfl
    · have hyield' : s.fg.yielded = false := (congrArg Foreground.yielded h.fg).trans hyield
      rw [← h.fg]
      simp [← hyield']
    · refine .ticked c s.irqAge hc hage ?_ rfl rfl hnow
      show { s.tmr with pend := false } = _
      rw [htmr, Timer.withPeriod, ← hr.pend]

theorem fgTurn_of_ticked (hr : ReadyToWait b) (h : InWait site b t) (hsleep : t.fg.sleeping = false) :
    fgTurn t = .micro := by
  obtain ⟨-, hstall, hyield⟩ := hr.awake
  exact fgTurn_micro.mpr ⟨h.op ▸ hr.op, hsleep, (congrArg Foreground.stall h.fg).trans hstall,
    (congrArg Foreground.yielded h.fg).trans hyield⟩

theorem InWait.running (hr : ReadyToWait b) (h : InWait site b s) :
    s.tmr.run = true ∧ s.tmr.period = some (waitDuration site b) := by
  cases h.clock <;> simp [*, hr.run]

/-- The timer of a wait one microsecond on. -/
theorem count_withPeriod (tm : Timer) (d c : Nat) (q : Bool) :
    { tm.withPeriod d with cnt := c, pend := q }.count d =
      if d ≤ c + 1 then { tm.withPeriod d with cnt := 0, pend := true }
      else { tm.withPeriod d with cnt := c + 1, pend := q } := by
  simp [Timer.count]

/-- A microsecond before the expiry counts up, or is the expiry and makes the request. -/
theorem waitClock_of_counting {d c : Nat} (hpend : b.tmr.pend = false) (hc : c < d)
    (htmr : s.tmr = { b.tmr.withPeriod d with cnt := c }) (htick : s.de.tick = false) (hnow : s.nowUs = b.nowUs + c) :
    WaitClock d b { passMicrosecond s.onTurn with tmr := s.tmr.count d } := by
  have hirq : s.irq = false := by simp [State.irq, htmr, hpend]
  have hage : (passMicrosecond s.onTurn).irqAge = 0 := by simp [hirq]
  have hcount := count_withPeriod b.tmr d c b.tmr.pend
  rw [htmr]
  by_cases hlast : d ≤ c + 1
  · refine .pending 0 (Nat.zero_le _) (hcount.trans (if_pos hlast)) htick (hage ▸ Nat.zero_le _) ?_
    show s.nowUs + 1 = b.nowUs + d + (passMicrosecond s.onTurn).irqAge
    omega
  · exact .counting (c + 1) (by omega) (hcount.trans (if_neg hlast)) htick (congrArg (· + 1) hnow)

/-- A microsecond over the request makes it older; the timer counts on, and a further expiry is the same request. -/
theorem waitClock_of_pending {d c : Nat} (hirq : s.irq = true) (hc : c ≤ s.irqAge)
    (htmr : s.tmr = { b.tmr.withPeriod d with cnt := c, pend := true }) (htick : s.de.tick = false)
    (hage : s.irqAge < irqSlack b) (hnow : s.nowUs = b.nowUs + d + s.irqAge) :
    WaitClock d b { passMicrosecond s.onTurn with tmr := s.tmr.count d } := by
  have holder : (passMicrosecond s.onTurn).irqAge = s.irqAge + 1 := by simp [hirq]
  have hcount := count_withPeriod b.tmr d c true
  rw [htmr]
  by_cases hlast : d ≤ c + 1
  · exact .pending 0 (Nat.zero_le _) (hcount.trans (if_pos hlast)) htick (holder ▸ hage)
      (holder ▸ congrArg (· + 1) hnow)
  · exact .pending (c + 1) (holder ▸ Nat.succ_le_succ hc) (hcount.trans (if_neg hlast)) htick (holder ▸ hage)
      (holder ▸ congrArg (· + 1) hnow)

/-- The script can put an interrupt off by `IRQ_LAT_US` where it has a turn left. -/
theorem InWait.irqSlack_eq (h : InWait site b s) (hturns : s.turns ≠ []) : irqSlack b = b.cfg.irqLatUs := by
  rw [irqSlack, if_neg]
  intro hnil
  exact hturns (List.suffix_nil.mp (hnil ▸ h.turns))

/-- Where the clock of a wait is after a microsecond. -/
theorem InWait.clock_of_tick (hr : ReadyToWait b) (h : InWait site b s) (hb : fgTurn s = .blocked)
    (hq : s.irq = true → s.turn = .hold ∧ s.irqAge < s.cfg.irqLatUs) :
    WaitClock (waitDuration site b) b { passMicrosecond s.onTurn with tmr := s.tmr.count (waitDuration site b) } := by
  cases h.clock with
  | counting c hc htmr htick hnow => exact waitClock_of_counting hr.pend hc htmr htick hnow
  | pending c hc htmr htick _ hnow =>
    have hirq : s.irq = true := by simp [State.irq, htmr, hr.ie]
    obtain ⟨hhold, hlat⟩ := hq hirq
    have hslack := h.irqSlack_eq (turns_ne_nil_of_turn (by simp [hhold]))
    exact waitClock_of_pending hirq hc htmr htick (hslack ▸ h.cfg ▸ hlat) hnow
  | ticked _ _ _ _ _ _ hsleep => cases (fgTurn_of_ticked hr h hsleep).symm.trans hb

/-- A microsecond of a wait is a state of the wait. -/
theorem InWait.of_tick (hr : ReadyToWait b) (h : InWait site b s) (hb : fgTurn s = .blocked)
    (hq : s.irq = true → s.turn = .hold ∧ s.irqAge < s.cfg.irqLatUs) :
    ∃ t, tick s.onTurn = .next t ∧ InWait site b t ∧ t.nowUs = s.nowUs + 1 ∧ t.de = s.de ∧
      t.fg.sleeping = s.fg.sleeping ∧ t.turns = s.turns.tail := by
  obtain ⟨hrun, hperiod⟩ := h.running hr
  obtain ⟨-, hstall, hyield⟩ := hr.awake
  have hstall' : s.fg.stall = 0 := (congrArg Foreground.stall h.fg).trans hstall
  have hyield' : s.fg.yielded = false := (congrArg Foreground.yielded h.fg).trans hyield
  refine ⟨_, tick_of_running (s := s.onTurn) hrun hperiod,
    ⟨?_, h.td, h.ld, h.resp, h.cfg, h.onTurn.turns, h.clock_of_tick hr hb hq⟩, rfl, rfl, rfl, rfl⟩
  rw [← h.fg]
  simp [wake, hstall', ← hyield']

/-! ### A wait ends -/

/-- What is left of a wait: the turns of the script, the microseconds, the handler, and the check that sleeps. -/
def waitLeft (site : WaitSite) (b t : State) : Nat :=
  2 * t.turns.length + 2 * (b.nowUs + waitDuration site b + irqSlack b - t.nowUs) + (if t.de.tick then 0 else 4) +
    (if t.fg.sleeping then 0 else 1)

/-- Every step of a wait leads to its end or leaves less of it. -/
theorem InWait.progress (hr : ReadyToWait b) (h : InWait site b s) :
    ∃ t, Machine.step s = .next t ∧
      ((∃ v late, WaitOver site b v late ∧ t = waitExit site v) ∨
        (InWait site b t ∧ waitLeft site b t < waitLeft site b s)) := by
  have hmove := step_waitMove (h.op ▸ hr.op) h.step (turn_ne_rst_of_noRst (noRst_of_suffix h.turns hr.noRst))
  generalize Machine.step s = o at hmove
  cases hmove with
  | @env t hturns same hsleep =>
    refine ⟨t, rfl, .inr ⟨h.of_sameBlock same fun _ hs => ?_, ?_⟩⟩
    · by_contra ht
      exact absurd (hsleep (by simpa using ht)) (by simp [hs])
    · have hlen := List.length_pos_iff.mpr hturns
      simp only [waitLeft, same.turns, onTurn_turns, List.length_tail, same.nowUs, onTurn_nowUs, same.de, onTurn_de]
      split <;> split <;> omega
  | irq hi =>
    obtain ⟨htick, t, ht, hin, htick', hnow, hturns⟩ := h.of_irq hr hi
    refine ⟨t, ht, .inr ⟨hin, ?_⟩⟩
    simp only [waitLeft, hturns, hnow, htick, htick', List.length_tail, Bool.false_eq_true, ↓reduceIte]
    split <;> omega
  | @sleep t htick hawake same hsleep =>
    refine ⟨t, rfl, .inr ⟨h.of_sameBlock same fun ht => (by cases htick.symm.trans ht), ?_⟩⟩
    simp only [waitLeft, same.turns, onTurn_turns, List.length_tail, same.nowUs, onTurn_nowUs, same.de, onTurn_de, hsleep,
      hawake, Bool.false_eq_true, ↓reduceIte]
    omega
  | exit htick =>
    obtain ⟨late, hover⟩ := h.onTurn.over htick
    exact ⟨_, rfl, .inl ⟨_, late, hover, rfl⟩⟩
  | time hb hq =>
    obtain ⟨t, ht, hin, hnow, hde, hsleep, hturns⟩ := h.of_tick hr hb hq
    refine ⟨t, ht, .inr ⟨hin, ?_⟩⟩
    have hle := hin.nowUs_le
    simp only [waitLeft, hturns, hde, hsleep, List.length_tail]
    omega

/-- 40 R83 for a wait at any of the five places: after its `W0` it runs to its end, the command in execution all along. -/
theorem wait_ends {b₁ : State} (hr : ReadyToWait b) (h : waitStart site b = .next b₁) :
    ∃ n v late, steps n b₁ = .next (waitExit site v) ∧ WaitOver site b v late ∧
      ∀ k < n, ∃ u, steps k b₁ = .next u ∧ u.fg.op = b.fg.op := by
  obtain ⟨n, t, ht, ⟨v, late, hover, rfl⟩, hthrough⟩ :=
    steps_until (waitLeft site b) (fun _ hin => hin.progress hr) (inWait_of_waitStart hr h)
  exact ⟨n, v, late, ht, hover, fun k hk => (hthrough k hk).imp fun _ ⟨hu, hin⟩ => ⟨hu, hin.op⟩⟩

/-! ### `WAIT_US` -/

/-- An accepted `WAIT_US` before its `W0`. -/
abbrev begunWaitUs (d : Nat) (s : State) : State := setImm d (beginCommand .waitUs (.w0 .waitUs) s)

theorem waitStart_of_exec {d : Nat} {s₁ : State} (h : exec (.waitUs d) s = .next s₁) :
    s.td.phase = .done ∧ waitStart .waitUs (begunWaitUs d s) = .next s₁ := by
  obtain ⟨hd, hk⟩ := guarded_next.mp h
  exact ⟨(admitWaitUs_eq_none.mp hd).2, hk⟩

theorem irqSlack_le (b : State) : irqSlack b ≤ b.cfg.irqLatUs := by
  unfold irqSlack
  split
  · exact Nat.zero_le _
  · exact le_rfl

/-- The whole of an admitted `WAIT_US`: it ends at most `IRQ_LAT_US` after its duration. -/
theorem waitUs_ends {d : Nat} {s₁ : State} (hidle : idle s) (hrun : s.tmr.run = true) (hie : s.tmr.ie = true)
    (hpend : s.tmr.pend = false) (hrst : s.noRst = true) (h : exec (.waitUs d) s = .next s₁) :
    ∃ n v late, steps n s₁ = .next (finish v) ∧
      WaitOver .waitUs (begunWaitUs d s) v late ∧ late ≤ s.cfg.irqLatUs ∧
      ∀ k < n, ∃ u, steps k s₁ = .next u ∧ u.fg.op = some .waitUs := by
  obtain ⟨hdone, hstart⟩ := waitStart_of_exec h
  obtain ⟨-, hawake⟩ := hidle
  have hr : ReadyToWait (begunWaitUs d s) := ⟨nofun, hawake, hdone, hrun, hie, hpend, hrst⟩
  obtain ⟨n, v, late, hn, hover, hthrough⟩ := wait_ends hr hstart
  exact ⟨n, v, late, hn, hover, hover.late_le.trans (irqSlack_le _), hthrough⟩

/-- Settles O18, from the end of the wait. -/
theorem waitTimingContract : Obligations.WaitTimingContract := by
  intro d s s₁ hidle hrun hie hpend hrst h
  obtain ⟨n, v, late, hn, hover, hlate, hthrough⟩ := waitUs_ends hidle hrun hie hpend hrst h
  have hnow : (finish v).nowUs = s.nowUs + d + late := hover.nowUs
  exact ⟨n, finish v, hn, rfl, hthrough, by omega, by omega, fun h0 => by omega⟩

/-- Settles O19: with no latency the timer has not counted on. -/
theorem waitEndsExactly : Obligations.WaitEndsExactly := by
  intro d s s₁ hidle hrun hie hpend hlat hrst h
  obtain ⟨n, v, late, hn, hover, hlate, hthrough⟩ := waitUs_ends hidle hrun hie hpend hrst h
  obtain rfl : late = 0 := by omega
  obtain ⟨c, hc, htmr⟩ := hover.tmr
  obtain rfl : c = 0 := by omega
  obtain ⟨-, hawake, -, -⟩ := hidle
  exact ⟨n, finish v, hn, hthrough, hover.nowUs, rfl, (congrArg Foreground.sleeping hover.fg).trans hawake,
    hover.tick, htmr, hover.td, hover.ld, hover.resp⟩

/-! ### `WAIT_MS` -/

theorem WaitOver.ready {late : Nat} (h : WaitOver site b t late) (hr : ReadyToWait b) : ReadyToWait t := by
  obtain ⟨c, -, htmr⟩ := h.tmr
  refine ⟨?_, ?_, h.td ▸ hr.done, htmr ▸ hr.run, htmr ▸ hr.ie, htmr ▸ hr.pend, noRst_of_suffix h.turns hr.noRst⟩
  · rw [h.fg]
    exact hr.op
  · rw [awake, h.fg]
    exact hr.awake

/-- With the script at its end the handler follows the expiry at once, and the timer is at the start of its period. -/
theorem WaitOver.exact {late : Nat} (h : WaitOver site b t late) (hturns : b.turns = []) :
    t.turns = [] ∧ t.nowUs = b.nowUs + waitDuration site b ∧ t.tmr = b.tmr.withPeriod (waitDuration site b) := by
  obtain rfl : late = 0 := Nat.le_zero.mp (h.late_le.trans (if_pos hturns).le)
  obtain ⟨c, hc, htmr⟩ := h.tmr
  obtain rfl := Nat.le_zero.mp hc
  exact ⟨List.suffix_nil.mp (hturns ▸ h.turns), h.nowUs, htmr⟩

/-- What `r` repetitions of `WAIT_MS` from `s`, and the end of the command, leave. -/
structure Repeated (r : Nat) (s t : State) : Prop where
  op : t.fg.op = none
  sleeping : t.fg.sleeping = false
  nowUs : t.nowUs = s.nowUs + s.cfg.tMsUs * r
  td : t.td = s.td
  ld : t.ld = s.ld
  resp : t.resp = s.resp
  untouched : r = 0 → t.de = s.de ∧ t.tmr = s.tmr
  waited : r ≠ 0 → t.de.tick = true ∧ t.tmr = s.tmr.withPeriod s.cfg.tMsUs

/-- One `M1` and its wait of `T_MS_US` before the repetitions. -/
theorem Repeated.succ {r c late : Nat} {u : State} (h : Repeated r (goto .m1 t) u)
    (ho : WaitOver .waitMs (goto (.w0 .waitMs) (setRepeat c s)) t late) (hturns : s.turns = []) :
    Repeated (r + 1) s u := by
  obtain ⟨-, hnow, htmr⟩ := ho.exact hturns
  have hcfg : t.cfg = s.cfg := ho.cfg
  refine ⟨h.op, h.sleeping, ?_, h.td.trans ho.td, h.ld.trans ho.ld, h.resp.trans ho.resp, nofun, fun _ => ?_⟩
  · calc u.nowUs = t.nowUs + t.cfg.tMsUs * r := h.nowUs
      _ = s.nowUs + s.cfg.tMsUs + s.cfg.tMsUs * r := by rw [hnow, hcfg]; rfl
      _ = s.nowUs + s.cfg.tMsUs * (r + 1) := by rw [Nat.mul_succ]; omega
  · by_cases hr : r = 0
    · obtain ⟨hde, htmr'⟩ := h.untouched hr
      exact ⟨(congrArg DelayEngine.tick hde).trans ho.tick, htmr'.trans htmr⟩
    · obtain ⟨htick, htmr'⟩ := h.waited hr
      refine ⟨htick, htmr'.trans ?_⟩
      show t.tmr.withPeriod t.cfg.tMsUs = _
      rw [htmr, hcfg]
      rfl

theorem ReadyToWait.quiet (h : ReadyToWait s) (hturns : s.turns = []) : quiet s :=
  ⟨hturns, by simp [State.irq, h.pend]⟩

theorem ReadyToWait.micro (h : ReadyToWait s) : fgTurn s = .micro := fgTurn_micro.mpr ⟨h.op, h.awake⟩

/-- Where the foreground is in its command, and how often it has to repeat, does not matter to the readiness. -/
theorem ReadyToWait.at (h : ReadyToWait s) (l : Label) (c : Nat) : ReadyToWait (goto l (setRepeat c s)) :=
  ⟨h.op, h.awake, h.done, h.run, h.ie, h.pend, h.noRst⟩

/-- `WAIT_MS` at `M1` runs through its repetitions to its end (40 R85), by induction on their number. -/
theorem repeats_end {r : Nat} (hr : ReadyToWait s) (hturns : s.turns = []) (hlit : s.cfg.literalsFit = true)
    (hst : s.fg.step = .m1) (hcnt : s.fg.cnt = r) : ∃ n t, steps n s = .next t ∧ Repeated r s t := by
  induction r generalizing s with
  | zero =>
    have hend : step s = .next (finish s) := by
      rw [step_of_micro (hr.quiet hturns) hr.micro, microStep_repeat hst, if_pos hcnt]
    obtain ⟨hsleep, -, -⟩ := hr.awake
    exact ⟨1, finish s, steps_one hend, rfl, hsleep, rfl, rfl, rfl, rfl, fun _ => ⟨rfl, rfl⟩, fun h => absurd rfl h⟩
  | succ r ih =>
    have hrw := hr.at (.w0 .waitMs) r
    have hm1 : step s = .next (goto (.w0 .waitMs) (setRepeat r s)) := by
      rw [step_of_micro (hr.quiet hturns) hr.micro, microStep_repeat hst, hcnt]
      rfl
    have hw0 := microStep_waitStart (s := goto (.w0 .waitMs) (setRepeat r s)) rfl (tMsUs_ne_zero hlit)
    obtain ⟨n, v, late, hn, hover, -⟩ := wait_ends hrw hw0
    obtain ⟨hturns', -⟩ := hover.exact hturns
    obtain ⟨m, t, hm, hrep⟩ := ih (s := goto .m1 v) ((hover.ready hrw).at .m1 v.fg.cnt) hturns'
      (show v.cfg.literalsFit = true from hover.cfg ▸ hlit) rfl (congrArg Foreground.cnt hover.fg)
    refine ⟨1 + (1 + (n + m)), t, ?_, hrep.succ hover hturns⟩
    rw [steps_add_of_next (steps_one hm1),
      steps_add_of_next (steps_one ((step_of_micro (hrw.quiet hturns) hrw.micro).trans hw0)),
      steps_add_of_next hn]
    exact hm

theorem tMsUs_of_spec {p : Params} (h : p.specDurations = true) : p.tMsUs = 1000 := by
  obtain ⟨-, hms⟩ := (Bool.and_eq_true _ _).mp h
  exact of_decide_eq_true hms

/-- Settles O20: `M0` is in the accepting step, the repetitions follow. -/
theorem waitMsEndsExactly : Obligations.WaitMsEndsExactly := by
  intro m s s₁ hlit hidle hturns hrun hie hpend h
  obtain ⟨-, hawake⟩ := hidle
  cases exec_next h with
  | waitMs hdone =>
    have hrst : s.noRst = true := by simp [State.noRst, hturns]
    have hr : ReadyToWait { s with fg := { s.fg with op := some .waitMs, step := .m1, imm := m, cnt := m } } :=
      ⟨nofun, hawake, hdone, hrun, hie, hpend, hrst⟩
    obtain ⟨n, t, hn, hrep⟩ := repeats_end hr hturns hlit rfl rfl
    exact ⟨n, t, hn, hrep.op, hrep.sleeping, hrep.nowUs, fun hspec => tMsUs_of_spec hspec ▸ hrep.nowUs, hrep.td, hrep.ld,
      hrep.resp, hrep.untouched, hrep.waited⟩

end Sys2Proof.Machine
end

section
/-! PROOF. The two commands of the line driver write one cell each: the statements of 41_line_driver. -/

namespace Sys2Proof.Machine

variable {s : State}

theorem exec_drive (l : Level) (s : State) : exec (.drive l) s = .next (finish (driveOp l s)) := rfl

theorem exec_setdir (d : Direction) (s : State) : exec (.setdir d) s = .next (finish (setdirOp d s)) := rfl

/-- With the pin in `output` the latch alone decides whether the block pulls (41 R98). -/
theorem padLow_iff_of_output (h : s.ld.dir = .output) : s.padLow = true ↔ s.ld.dlatch = .low :=
  padLow_iff.trans (and_iff_right h)

/-- Settles O10: in `input` neither the old latch nor the new one is pulled; in `output` the new one decides. -/
theorem driveWritesLatch : Obligations.DriveWritesLatch := by
  intro l s
  refine ⟨_, exec_drive l s, rfl, fun hin => ?_, fun hout => padLow_iff_of_output hout⟩
  have hin' : (finish (driveOp l s)).ld.dir = .input := hin
  exact ⟨(bus_of_input hin').trans (bus_of_input hin).symm,
    (padLow_eq_false_of_input hin').trans (padLow_eq_false_of_input hin).symm⟩

/-- Settles O11: the pull follows from the direction written and the latch, which the command leaves as it was. -/
theorem setdirKeepsLatch : Obligations.SetdirKeepsLatch := by
  intro d s
  exact ⟨_, exec_setdir d s, rfl, fun hin => padLow_eq_false_of_input hin, fun hout => padLow_iff_of_output hout, rfl⟩

end Sys2Proof.Machine
end

section
/-! PROOF. The single steps of `RESET`: its admission, and the micro-operations after `B0`. -/

namespace Sys2Proof.Machine

variable {s : State}

theorem exec_reset_refused {r : Refusal} (h : admitReset s = some r) : exec .reset s = .refused r := by
  show guarded (admitReset s) _ = _
  rw [h, guarded]

/-- Settles O23: the two checks in their order, then `B0`. -/
theorem resetAdmission : Obligations.ResetAdmission := by
  intro s
  refine ⟨fun hp => exec_reset_refused ?inUse, fun hp hd => exec_reset_refused ?input, fun hp hd => ?admitted⟩
  case inUse => simp [admitReset, Descriptor.active, hp]
  case input => simp [admitReset, Descriptor.active, hp, hd]
  case admitted => exact guarded_next.mpr ⟨admitReset_eq_none.mpr ⟨hp, hd⟩, rfl⟩

theorem microStep_b2 (hst : s.fg.step = .b2) : microStep s = .next (microB2 s) := by rw [microStep, hst]

theorem microStep_b4 (hst : s.fg.step = .b4) : microStep s = .next (microB4 s) := by rw [microStep, hst]

theorem microStep_b5 (hst : s.fg.step = .b5) (hd : s.ld.dir = .input) :
    microStep s = .next (goto .b6 (setSampled s.bus s)) := by
  rw [microStep, hst]
  exact microB5_next.mpr ⟨hd, rfl⟩

theorem microStep_b6 (hst : s.fg.step = .b6) : microStep s = .next (microB6 s) := by rw [microStep, hst]

theorem microStep_b7 (hst : s.fg.step = .b7) : microStep s = .next (microB7 s) := by rw [microStep, hst]

theorem microStep_b9 (hst : s.fg.step = .b9) : microStep s = .next (microB9 s) := by rw [microStep, hst]

/-- Every wait but that of `WAIT_US` is for a duration fixed in the hardware, and none of those is 0 (92 D2). -/
theorem waitDuration_fixed_ne_zero {site : WaitSite} (hlit : s.cfg.literalsFit = true) (hsite : site ≠ .waitUs) :
    waitDuration site s ≠ 0 :=
  (legalPeriod_iff.mp (waitDuration_legal hlit fun h => absurd h hsite)).1

/-- Settles O24: each label of `RESET` has its micro-operation, and the `W0`s wait for legal durations. -/
theorem resetMicroOps : Obligations.ResetMicroOps := by
  intro s hlit hquiet hmicro
  have hd (site : WaitSite) (hsite : site ≠ .waitUs) := waitDuration_fixed_ne_zero hlit hsite
  rw [step_of_micro hquiet hmicro]
  exact ⟨fun hst => microStep_waitStart hst (hd .resetLow nofun), microStep_b2,
    fun hst => microStep_waitStart hst (hd .settle nofun), microStep_b4, microStep_b5, microStep_b6, microStep_b7,
    fun hst => microStep_waitStart hst (hd .remainder nofun)⟩

end Sys2Proof.Machine
end

section
/-! PROOF. How long `RESET` takes and what it answers, wait by wait: the timing of 42_blocking_reset. -/

namespace Sys2Proof.Machine

variable {s t : State} {P Q : State → Prop}

/-- Beside an inert descriptor the handler does its prologue and nothing more (60 R157). -/
theorem takeInterrupt_of_done (h : s.td.phase = .done) : takeInterrupt s = .next (settleIrq (irqPrologue s)) := by
  rw [takeInterrupt, smStep_of_done h]
  rfl

/-! ### Runs to a state of a kind -/

/-- The run from `s` reaches a state with `P`. -/
def Reaches (P : State → Prop) (s : State) : Prop := ∃ n t, steps n s = .next t ∧ P t

theorem Reaches.here (h : P s) : Reaches P s := ⟨0, s, rfl, h⟩

theorem Reaches.trans (h : Reaches P s) (hnext : ∀ t, P t → Reaches Q t) : Reaches Q s := by
  obtain ⟨m, t, hm, hP⟩ := h
  obtain ⟨n, u, hn, hQ⟩ := hnext t hP
  exact ⟨m + n, u, (steps_add_of_next hm).trans hn, hQ⟩

theorem Reaches.of_step (hstep : step s = .next t) (h : Reaches P t) : Reaches P s :=
  Reaches.trans ⟨1, t, steps_one hstep, rfl⟩ fun _ ht => ht ▸ h

/-- With the script at its end nothing moves the external pull, and the script stays at its end. -/
theorem steps_extLow {n : Nat} (hturns : s.turns = []) (h : steps n s = .next t) : t.extLow = s.extLow := by
  induction n generalizing s with
  | zero => cases h; rfl
  | succ n ih =>
    obtain ⟨u, hu, ht⟩ := andThen_next.mp h
    have hext : u.extLow = s.extLow := (parametersAndInputsKept s u hu).2 fun b => by simp [State.turn, hturns]
    exact (ih (by rw [step_turns hu, hturns]; rfl) ht).trans hext

/-! ### `RESET` at a label -/

/-- `us` microseconds after `s`, with nothing from the environment, `RESET` is at the label `l`, ready to go on, the line
driver and the sample as given (42 R110). -/
structure ResetAt (s : State) (l : Label) (us : Nat) (ld : LineDriver) (sampled : Level) (t : State) : Prop where
  ready : ReadyToWait t
  turns : t.turns = []
  step : t.fg.step = l
  nowUs : t.nowUs = s.nowUs + us
  ld : t.ld = ld
  sampled : t.fg.s = sampled
  td : t.td = s.td
  cfg : t.cfg = s.cfg
  extLow : t.extLow = s.extLow

variable {l : Label} {us : Nat} {ld : LineDriver} {x : Level}

/-- The micro-operation of the label is the step. -/
theorem ResetAt.step_eq (h : ResetAt s l us ld x t) : Machine.step t = microStep t :=
  step_of_micro (h.ready.quiet h.turns) h.ready.micro

/-- A label that follows `t` at once finds what `t` had, but for the line driver and the sample. -/
theorem ResetAt.advance (h : ResetAt s l us ld x t) (l' : Label) (ld' : LineDriver) (x' : Level) :
    ResetAt s l' us ld' x' { t with ld := ld', fg := { t.fg with step := l', s := x' } } := by
  obtain ⟨⟨hop, hawake, hdone, hrun, hie, hpend, hrst⟩, hturns, -, hnow, -, -, htd, hcfg, hext⟩ := h
  exact ⟨⟨hop, hawake, hdone, hrun, hie, hpend, hrst⟩, hturns, rfl, hnow, rfl, rfl, htd, hcfg, hext⟩

/-- `B2`: the line is released (42 R110). -/
theorem ResetAt.release (h : ResetAt s .b2 us ld x t) :
    Reaches (ResetAt s (.w0 .settle) us { ld with dlatch := .high } x) t := by
  refine .of_step (h.step_eq.trans (microStep_b2 h.step)) (.here ?_)
  obtain rfl := h.ld
  obtain rfl := h.sampled
  exact h.advance _ _ _

/-- `B7`: the pin is in `output` again (42 R110). -/
theorem ResetAt.toOutput (h : ResetAt s .b7 us ld x t) :
    Reaches (ResetAt s (.w0 .remainder) us { ld with dir := .output } x) t := by
  refine .of_step (h.step_eq.trans (microStep_b7 h.step)) (.here ?_)
  obtain rfl := h.ld
  obtain rfl := h.sampled
  exact h.advance _ _ _

/-! ### The waits of `RESET` -/

theorem waitDuration_of_cfg {site : WaitSite} (hsite : site ≠ .waitUs) (hcfg : t.cfg = s.cfg) :
    waitDuration site t = waitDuration site s := by
  cases site with
  | waitUs => exact absurd rfl hsite
  | _ => simp only [waitDuration, hcfg]

/-- What the last wait of `d` microseconds leaves in the flag and the timer. -/
def JustWaited (d : Nat) (s t : State) : Prop :=
  t.de.tick = true ∧ t.tmr = { s.tmr with period := some d, cnt := 0, uevEn := true }

theorem ReadyToWait.withPeriod_eq (ht : ReadyToWait t) (hs : ReadyToWait s) (d : Nat) :
    t.tmr.withPeriod d = { s.tmr with period := some d, cnt := 0, uevEn := true } := by
  simp [Timer.withPeriod, ht.run, ht.ie, ht.pend, hs.run, hs.ie, hs.pend]

/-- A wait of `RESET` takes its duration and leads to the label behind it (40 R83). -/
theorem ResetAt.wait {site : WaitSite} (h : ResetAt s (.w0 site) us ld x t) (hs : ReadyToWait s)
    (hlit : s.cfg.literalsFit = true) (hsite : site ≠ .waitUs) (hexit : ∀ v, waitExit site v = goto l v) :
    Reaches (fun u => ResetAt s l (us + waitDuration site s) ld x u ∧ JustWaited (waitDuration site s) s u) t := by
  have hstart := microStep_waitStart h.step (waitDuration_fixed_ne_zero (h.cfg ▸ hlit) hsite)
  obtain ⟨n, v, late, hn, hover, -⟩ := wait_ends h.ready (by rwa [microStep, h.step] at hstart)
  have hrun : steps (1 + n) t = .next (goto l v) := by
    rw [steps_add_of_next (steps_one (h.step_eq.trans hstart)), hn, hexit]
  obtain ⟨hturns, hnow, htmr⟩ := hover.exact h.turns
  rw [waitDuration_of_cfg hsite h.cfg] at hnow htmr
  refine ⟨1 + n, goto l v, hrun, ⟨(hover.ready h.ready).at l v.fg.cnt, hturns, rfl, ?_, hover.ld.trans h.ld, ?_,
    hover.td.trans h.td, hover.cfg.trans h.cfg, (steps_extLow h.turns hrun).trans h.extLow⟩, hover.tick, ?_⟩
  · rw [goto_nowUs, hnow, h.nowUs, Nat.add_assoc]
  · exact (congrArg Foreground.s hover.fg).trans h.sampled
  · exact htmr.trans (h.ready.withPeriod_eq hs _)

/-! ### The cost of the sample -/

/-- The handler at a label where the foreground neither sleeps nor polls clears the request and nothing more. -/
theorem ResetAt.of_handler (h : ResetAt s l us ld x (stall 0 (clearPend t))) :
    ResetAt s l us ld x (stall 0 (settleIrq (irqPrologue t))) := by
  obtain ⟨⟨hop, -, hdone, hrun, hie, hpend, hrst⟩, hturns, hst, hnow, hld, hx, htd, hcfg, hext⟩ := h
  exact ⟨⟨hop, ⟨rfl, rfl, rfl⟩, hdone, hrun, hie, hpend, hrst⟩, hturns, hst, hnow, hld, hx, htd, hcfg, hext⟩

/-- A microsecond of a stalled foreground, whatever the timer does in it. -/
theorem ResetAt.of_stalled_tick {u : State} (h : ResetAt s l us ld x (stall 0 t)) (htick : tick t = .next u) :
    ResetAt s l (us + 1) ld x (stall 0 (clearPend u)) := by
  obtain ⟨⟨hop, hawake, hdone, hrun, hie, -, hrst⟩, hturns, hst, hnow, hld, hx, htd, hcfg, hext⟩ := h
  have hm := tick_microsecond htick
  obtain ⟨hout, hnow'⟩ := tick_sameOutside htick
  obtain ⟨hrun', hie'⟩ := hm.enables
  have hfg : (stall 0 u).fg = (stall 0 t).fg := by
    obtain ⟨-, -, hyield⟩ := hawake
    rw [stall_fg, hm.fg, stall_fg, ← show t.fg.yielded = false from hyield]
  refine ⟨⟨hfg ▸ hop, (by rwa [awake, ← hfg] at hawake), hm.td ▸ hdone, hrun'.trans hrun, hie'.trans hie, rfl, ?_⟩,
    hout.turns.trans hturns, hfg ▸ hst, ?_, hm.ld.trans hld, hfg ▸ hx, hm.td.trans htd, hm.cfg.trans hcfg,
    hout.extLow.trans hext⟩
  · rw [State.noRst, show (stall 0 (clearPend u)).turns = t.turns from hout.turns]
    exact hrst
  · exact hnow'.trans (congrArg (· + 1) hnow)

/-- `STALL(k)` takes `k` microseconds, an expiry among them handled at once (00_scope R7). -/
theorem ResetAt.stalled {k : Nat} (h : ResetAt s l us ld x (stall 0 t)) (hk : t.fg.stall = k)
    (hperiod : t.tmr.period ≠ none) : Reaches (ResetAt s l (us + k) ld x) t := by
  induction k generalizing us t with
  | zero =>
    have ht : stall 0 t = t := by rw [← hk]; rfl
    exact .here (ht ▸ h)
  | succ k ih =>
    have hblocked : fgTurn t = .blocked := by simp [fgTurn, hk]
    obtain ⟨u, hu⟩ := tick_total fun _ => hperiod
    have hm := tick_microsecond hu
    have hstall : u.fg.stall = k := by rw [hm.fg, hk]; rfl
    have hperiod' : u.tmr.period ≠ none := hm.period ▸ hperiod
    have hat := h.of_stalled_tick hu
    rw [Nat.add_comm k 1, ← Nat.add_assoc]
    refine .of_step ((step_of_blocked (s := t) (h.ready.quiet h.turns) hblocked).trans hu) ?_
    cases hpend : u.tmr.pend with
    | false =>
      have hclear : clearPend u = u := by rw [clearPend, ← hpend]
      exact ih (hclear ▸ hat) hstall hperiod'
    | true =>
      have hirq : u.irq = true := by rw [State.irq, hpend]; exact hat.ready.ie
      have hstep : Machine.step u = .next (settleIrq (irqPrologue u)) := by
        rw [step_of_irq (s := u) hat.turns hirq, takeInterrupt_of_done (s := u) hat.ready.done]
      exact .of_step hstep (ih hat.of_handler hstall hperiod')

/-- `B6` and its stall: the cost of the sample passes (42 R110, 92 D14). -/
theorem ResetAt.sampleCost (h : ResetAt s .b6 us ld x t) (hperiod : t.tmr.period ≠ none) :
    Reaches (ResetAt s .b7 (us + s.cfg.tSampleUs) ld x) t := by
  obtain rfl := h.ld
  obtain rfl := h.sampled
  have hstep : Machine.step t = .next (microB6 t) := h.step_eq.trans (microStep_b6 h.step)
  obtain ⟨-, hstall, -⟩ := h.ready.awake
  have h7 : ResetAt s .b7 us t.ld t.fg.s (stall 0 (microB6 t)) := by
    have hgoto : stall 0 (microB6 t) = goto .b7 t := by rw [← hstall]; rfl
    exact hgoto ▸ h.advance .b7 _ _
  exact .of_step hstep (h7.stalled (congrArg Params.tSampleUs h.cfg) hperiod)

/-- `B4` to `B6`: with the pin in `input` the sample is what the others make of the line, and its cost passes (42 R110). -/
theorem ResetAt.sample (h : ResetAt s .b4 us ld x t) (hperiod : t.tmr.period ≠ none) :
    Reaches (ResetAt s .b7 (us + s.cfg.tSampleUs) { ld with dir := .input } (if s.extLow then .low else .high)) t := by
  obtain rfl := h.ld
  obtain rfl := h.sampled
  have h5 : ResetAt s .b5 us { t.ld with dir := .input } t.fg.s (microB4 t) := h.advance _ _ _
  have hbus : (microB4 t).bus = if s.extLow then .low else .high := h.extLow ▸ bus_of_input (s := microB4 t) rfl
  have h6 := h5.advance .b6 { t.ld with dir := .input } (microB4 t).bus
  rw [hbus] at h6
  refine .of_step (h.step_eq.trans (microStep_b4 h.step)) (.of_step (h5.step_eq.trans (microStep_b5 rfl rfl)) ?_)
  rw [hbus]
  exact h6.sampleCost hperiod

/-! ### The whole command -/

/-- `B9`: the command ends with the presence bit (42 R110, R112). -/
theorem ResetAt.respond (h : ResetAt s .b9 us ld x t) : Machine.step t = .next (microB9 t) :=
  h.step_eq.trans (microStep_b9 h.step)

/-- How a `RESET` of the duration `us` that began in `s` ends (42 R110, R112). -/
structure ResetEnded (s : State) (us : Nat) (t : State) : Prop where
  nowUs : t.nowUs = s.nowUs + us
  op : t.fg.op = none
  sleeping : t.fg.sleeping = false
  resp : t.resp = if s.extLow then 1#3 else 0#3
  ld : t.ld = { dir := .output, dlatch := .high }
  waited : JustWaited s.cfg.tRemainderUs s t
  td : t.td = s.td

/-- The presence bit is 1 exactly when the others pull the line (42 R112). -/
theorem presence_of_extLow (b : Bool) :
    respOfFlag (presence (if b then Level.low else .high)) = if b then 1#3 else 0#3 := by
  cases b <;> rfl

/-- `RESET` from its first `W0` to its end: three waits, and between them the release, the sample and its cost. -/
theorem reset_ends (hlit : s.cfg.literalsFit = true)
    (h : ResetAt s (.w0 .resetLow) 0 { dir := .output, dlatch := .low } s.fg.s s) :
    Reaches (ResetEnded s (s.cfg.tResetLowUs + s.cfg.tSettleUs + s.cfg.tSampleUs + s.cfg.tRemainderUs)) s := by
  have hs := h.ready
  refine (h.wait hs hlit nofun fun _ => rfl).trans fun t₁ ⟨h₁, _⟩ => h₁.release.trans fun t₂ h₂ => ?_
  refine (h₂.wait hs hlit nofun fun _ => rfl).trans fun t₃ ⟨h₃, _, htmr⟩ => ?_
  refine (h₃.sample (by simp [htmr])).trans fun t₄ h₄ => h₄.toOutput.trans fun t₅ h₅ => ?_
  refine (h₅.wait hs hlit nofun fun _ => rfl).trans fun t₆ ⟨h₆, hwaited⟩ => ?_
  obtain ⟨hsleep, -, -⟩ := h₆.ready.awake
  refine .of_step h₆.respond (.here ⟨?_, rfl, hsleep, ?_, h₆.ld, hwaited, h₆.td⟩)
  · refine h₆.nowUs.trans (congrArg (s.nowUs + ·) ?_)
    simp [waitDuration]
  · show respOfFlag (presence t₆.fg.s) = _
    rw [h₆.sampled, presence_of_extLow]

/-- The durations of 00_scope R5 sum up to 659 µs (42 R111). -/
theorem resetDuration_of_spec {p : Params} (h : p.specDurations = true) :
    p.tResetLowUs + p.tSettleUs + p.tRemainderUs = 659 := by
  simp only [Params.specDurations, Bool.and_eq_true, decide_eq_true_eq] at h
  obtain ⟨⟨⟨⟨⟨hlow, hsettle⟩, hwindow⟩, hbudget⟩, -⟩, -⟩ := h
  rw [Params.tRemainderUs, hlow, hsettle, hwindow, hbudget]

/-- Settles O25: `B0` is in the accepting step, the rest of the command follows. -/
theorem resetEndsWithPresence : Obligations.ResetEndsWithPresence := by
  intro s s₁ hlit hidle hturns hrun hie hpend h
  obtain ⟨-, hawake⟩ := hidle
  cases exec_next h with
  | reset hdone hdir =>
    have hrst : s.noRst = true := by simp [State.noRst, hturns]
    obtain ⟨n, t, hn, hend⟩ := reset_ends
      (s := { s with ld := { s.ld with dlatch := .low }, fg := { s.fg with op := some .reset, step := .w0 .resetLow } })
      hlit ⟨⟨nofun, hawake, hdone, hrun, hie, hpend, hrst⟩, hturns, rfl, rfl, by rw [← hdir], rfl, rfl, rfl, rfl⟩
    obtain ⟨htick, htmr⟩ := hend.waited
    have hnow : t.nowUs = s.nowUs + (s.cfg.tResetLowUs + s.cfg.tSettleUs + s.cfg.tSampleUs + s.cfg.tRemainderUs) :=
      hend.nowUs
    refine ⟨n, t, hn, by omega, fun hspec => ?_, hend.op, hend.sleeping, hend.resp, hend.ld, htick, htmr, hend.td⟩
    have hsum := resetDuration_of_spec hspec
    omega

end Sys2Proof.Machine
end

section
/-! PROOF. How long `RESET` pulls the line, whatever the environment does but present a command: the low pulse of
42_blocking_reset. -/

namespace Sys2Proof.Machine

variable {s t : State}

/-! ### While no command is presented -/

theorem noCmd_iff : s.noCmd = true ↔ s.cmd = none ∧ ∀ w, Turn.cmd w ∉ s.turns := by
  rw [State.noCmd, Bool.and_eq_true, decide_eq_true_eq, List.all_eq_true]
  refine and_congr_right fun _ => ⟨fun h w hw => ?_, fun h u hu => ?_⟩
  · cases h _ hw
  · cases u with
    | cmd w => exact absurd hu (h w)
    | _ => rfl

theorem turn_ne_cmd_of_noCmd {w : Nat} (h : s.noCmd = true) : s.turn ≠ .cmd w := by
  obtain ⟨-, hscript⟩ := noCmd_iff.mp h
  intro hturn
  cases hts : s.turns with
  | nil => rw [State.turn, hts] at hturn; cases hturn
  | cons u us =>
    rw [State.turn, hts] at hturn
    cases hturn
    exact hscript w (by rw [hts]; exact List.mem_cons_self)

/-- With no word presented the foreground accepts none. -/
theorem fgTurn_ne_accept {w : Nat} (hcmd : s.cmd = none) : fgTurn s ≠ .accept w := by
  intro h
  obtain ⟨-, hw, -⟩ := fgTurn_accept.mp h
  cases hcmd.symm.trans hw

/-- With no word presented no own step touches the ports. -/
theorem OwnMove.sameOutside {o : Host.Outcome State Fault Refusal} (m : OwnMove s o) (h : o = .next t)
    (hcmd : s.cmd = none) : SameOutside s t := by
  cases m with
  | irq => exact (takeInterrupt_sameOutside h).1
  | refuse _ hacc | accept _ hacc => exact absurd hacc (fgTurn_ne_accept hcmd)
  | micro => exact (microStep_sameTime h).toSameOutside
  | time => exact (tick_sameOutside h).1

theorem noCmd_of_step (h : s.noCmd = true) (hst : step s = .next t) : t.noCmd = true := by
  obtain ⟨hcmd, hscript⟩ := noCmd_iff.mp h
  refine noCmd_iff.mpr ⟨?_, fun w hw => hscript w (List.mem_of_mem_tail (step_turns hst ▸ hw))⟩
  cases hst ▸ step_move s with
  | ext | wake | rst => exact hcmd
  | cmd w hturn => exact absurd hturn (turn_ne_cmd_of_noCmd h)
  | own _ m => exact (m.sameOutside rfl hcmd).cmd.trans hcmd

/-- The handler leaves the foreground at its command. -/
theorem takeInterrupt_op (h : takeInterrupt s = .next t) : t.fg.op = s.fg.op := by
  rcases takeInterrupt_next h with ⟨-, rfl⟩ | ⟨-, -, rfl⟩ | ⟨-, -, rfl⟩ <;> rfl

/-- An idle foreground stays idle while no command is presented (10_state R26). -/
theorem idle_op_of_step (hcmd : s.noCmd = true) (hop : s.fg.op = none) (h : step s = .next t) : t.fg.op = none := by
  cases h ▸ step_move s with
  | ext | wake | cmd => exact hop
  | rst => rfl
  | own _ m =>
    generalize ho : Host.Outcome.next t = o at m
    cases m with
    | irq => exact (takeInterrupt_op ho.symm).trans hop
    | refuse _ hacc | accept _ hacc => exact absurd hacc (fgTurn_ne_accept (noCmd_iff.mp hcmd).1)
    | micro hm => exact absurd hop (fgTurn_micro.mp hm).1
    | time => exact (congrArg Foreground.op (tick_microsecond ho.symm).fg).trans hop

/-! ### Who can move while a command runs beside an inert descriptor -/

/-- What a step short of a hardware reset leads to in such a state: an ENV step, the handler's prologue, a
micro-operation, or a microsecond (00_scope R6, R7). -/
inductive BusyMove (s : State) : State → Prop where
  | env {t : State} (same : SameBlock s.onTurn t) (hsleep : t.fg.sleeping = true → s.fg.sleeping = true) : BusyMove s t
  | irq (hi : s.irq = true) : BusyMove s (settleIrq (irqPrologue s.onTurn))
  | micro {t : State} (hm : microStep s.onTurn = .next t) : BusyMove s t
  | time {t : State} (hb : fgTurn s = .blocked) (hq : s.irq = true → s.irqAge < s.cfg.irqLatUs)
      (ht : tick s.onTurn = .next t) : BusyMove s t

theorem step_busyMove (hop : s.fg.op ≠ none) (hdone : s.td.phase = .done) (hrst : s.turn ≠ .rst)
    (h : step s = .next t) : BusyMove s t := by
  cases h ▸ step_move s with
  | ext | cmd => exact .env (by constructor <;> rfl) id
  | wake => exact .env (by constructor <;> rfl) nofun
  | rst hturn => exact absurd hturn hrst
  | own _ m =>
    generalize ho : Host.Outcome.next t = o at m
    cases m with
    | irq hi =>
      cases ho.trans (takeInterrupt_of_done (s := s.onTurn) hdone)
      exact .irq hi
    | refuse _ hacc | accept _ hacc => exact absurd (fgTurn_accept.mp hacc).1 hop
    | micro => exact .micro ho.symm
    | time hb hq => exact .time hb hq ho.symm

/-! ### `RESET` before its release -/

/-- Where `RESET` is in its first wait, started at `t0`, with the parameters `c`: before the `W0`, before the expiry, at
the request, after the handler up to the release. -/
inductive LowClock (c : Params) (t0 : Nat) (s : State) : Prop where
  | start (hst : s.fg.step = .w0 .resetLow) (hsleep : s.fg.sleeping = false) (hpend : s.tmr.pend = false)
      (hnow : s.nowUs = t0)
  | counting (hst : s.fg.step = .w1 .resetLow) (htick : s.de.tick = false) (hpend : s.tmr.pend = false)
      (huev : s.tmr.uevEn = true) (hperiod : s.tmr.period = some c.tResetLowUs) (hcnt : s.tmr.cnt < c.tResetLowUs)
      (hnow : s.nowUs = t0 + s.tmr.cnt)
  | pending (hst : s.fg.step = .w1 .resetLow) (htick : s.de.tick = false) (hpend : s.tmr.pend = true)
      (hage : s.irqAge ≤ c.irqLatUs) (hnow : s.nowUs = t0 + c.tResetLowUs + s.irqAge)
  | ticked (hst : s.fg.step = .w1 .resetLow ∨ s.fg.step = .b2) (htick : s.de.tick = true)
      (hsleep : s.fg.sleeping = false) (hge : t0 + c.tResetLowUs ≤ s.nowUs)
      (hle : s.nowUs ≤ t0 + c.tResetLowUs + c.irqLatUs)

/-- `RESET` pulls the line, and its first wait can be relied on to end (42 R110, 40 R83). -/
structure PullsLow (c : Params) (t0 : Nat) (s : State) : Prop where
  ld : s.ld = { dir := .output, dlatch := .low }
  op : s.fg.op = some .reset
  stall : s.fg.stall = 0
  yielded : s.fg.yielded = false
  done : s.td.phase = .done
  run : s.tmr.run = true
  ie : s.tmr.ie = true
  cfg : s.cfg = c
  clock : LowClock c t0 s

/-- A command runs that has released the line at `t1` or later, and no label of it drives the line low (42 R110). -/
structure Released (t1 : Nat) (s : State) : Prop where
  op : s.fg.op ≠ none
  done : s.td.phase = .done
  dlatch : s.ld.dlatch = .high
  step : s.fg.step ≠ .b0
  nowUs : t1 ≤ s.nowUs

variable {c : Params} {t0 t1 : Nat}

theorem PullsLow.micro_of_awake (h : PullsLow c t0 s) (hsleep : s.fg.sleeping = false) : fgTurn s = .micro :=
  fgTurn_micro.mpr ⟨by simp [h.op], hsleep, h.stall, h.yielded⟩

theorem PullsLow.of_sameBlock (h : PullsLow c t0 s) (hs : SameBlock s.onTurn t)
    (hsleep : t.fg.sleeping = true → s.fg.sleeping = true) : PullsLow c t0 t := by
  have hfg := hs.fg
  have hstep : t.fg.step = s.fg.step := (congrArg Foreground.step hfg :)
  have htick : t.de.tick = s.de.tick := (congrArg DelayEngine.tick hs.de :)
  have htmr : t.tmr = s.tmr := hs.tmr
  have hawake (h0 : s.fg.sleeping = false) : t.fg.sleeping = false := by
    by_contra ht
    cases h0.symm.trans (hsleep (by simpa using ht))
  refine ⟨hs.ld.trans h.ld, (congrArg Foreground.op hfg).trans h.op, (congrArg Foreground.stall hfg).trans h.stall,
    (congrArg Foreground.yielded hfg).trans h.yielded, hs.td ▸ h.done, htmr ▸ h.run, htmr ▸ h.ie, hs.cfg.trans h.cfg, ?_⟩
  have hnow : t.nowUs = s.nowUs := hs.nowUs
  have hage : t.irqAge = s.irqAge := hs.irqAge
  cases h.clock with
  | start h1 h2 h3 h4 => exact .start (hstep ▸ h1) (hawake h2) (htmr ▸ h3) (hnow ▸ h4)
  | counting h1 h2 h3 h4 h5 h6 h7 =>
    exact .counting (hstep ▸ h1) (htick ▸ h2) (htmr ▸ h3) (htmr ▸ h4) (htmr ▸ h5) (htmr ▸ h6) (htmr ▸ hnow ▸ h7)
  | pending h1 h2 h3 h4 h5 => exact .pending (hstep ▸ h1) (htick ▸ h2) (htmr ▸ h3) (hage ▸ h4) (hage ▸ hnow ▸ h5)
  | ticked h1 h2 h3 h4 h5 => exact .ticked (hstep ▸ h1) (htick ▸ h2) (hawake h3) (hnow ▸ h4) (hnow ▸ h5)

/-- The handler ends the counting, at most `IRQ_LAT_US` after the expiry. -/
theorem PullsLow.of_irq (h : PullsLow c t0 s) (hi : s.irq = true) :
    PullsLow c t0 (settleIrq (irqPrologue s.onTurn)) := by
  obtain ⟨hpend', -⟩ := (Bool.and_eq_true _ _).mp hi
  refine ⟨h.ld, h.op, h.stall, rfl, h.done, h.run, h.ie, h.cfg, ?_⟩
  cases h.clock with
  | start _ _ hpend | counting _ _ hpend => cases hpend.symm.trans hpend'
  | pending hst _ _ hage hnow =>
    refine .ticked (.inl hst) rfl rfl ?_ ?_ <;> simp only [settleIrq_nowUs, irqPrologue_nowUs, onTurn_nowUs] <;> omega
  | ticked hst _ _ hge hle => exact .ticked hst rfl rfl hge hle

/-- The micro-operations up to the release: the `W0`, the checks of the flag, and `B2`, which ends the pulse. -/
theorem PullsLow.of_micro (h : PullsLow c t0 s) (hm : microStep s.onTurn = .next t) :
    PullsLow c t0 t ∨ Released (t0 + c.tResetLowUs) t := by
  cases h.clock with
  | start hst hsleep hpend hnow =>
    rw [microStep, show s.onTurn.fg.step = _ from hst] at hm
    obtain ⟨hd, rfl⟩ := waitStart_next.mp hm
    have hdur : waitDuration .resetLow s.onTurn = c.tResetLowUs := congrArg Params.tResetLowUs h.cfg
    rw [hdur] at hd ⊢
    exact .inl ⟨h.ld, h.op, h.stall, h.yielded, h.done, h.run, h.ie, h.cfg,
      .counting rfl rfl hpend rfl rfl (Nat.pos_of_ne_zero hd) hnow⟩
  | counting hst htick hpend huev hperiod hcnt hnow =>
    cases hm.symm.trans (microStep_waitSleep (s := s.onTurn) hst htick)
    exact .inl ⟨h.ld, h.op, h.stall, h.yielded, h.done, h.run, h.ie, h.cfg,
      .counting hst htick hpend huev hperiod hcnt hnow⟩
  | pending hst htick hpend hage hnow =>
    cases hm.symm.trans (microStep_waitSleep (s := s.onTurn) hst htick)
    exact .inl ⟨h.ld, h.op, h.stall, h.yielded, h.done, h.run, h.ie, h.cfg, .pending hst htick hpend hage hnow⟩
  | ticked hst htick hsleep hge hle =>
    rcases hst with hst | hst
    · cases hm.symm.trans (microStep_waitExit (s := s.onTurn) hst htick)
      exact .inl ⟨h.ld, h.op, h.stall, h.yielded, h.done, h.run, h.ie, h.cfg, .ticked (.inr rfl) htick hsleep hge hle⟩
    · cases hm.symm.trans (microStep_b2 (s := s.onTurn) hst)
      exact .inr ⟨show s.fg.op ≠ none by simp [h.op], h.done, rfl, nofun, hge⟩

/-- A pending expiry stays pending through a microsecond (60 R153). -/
theorem tick_keeps_pend (h : tick s = .next t) (hpend : s.tmr.pend = true) : t.tmr.pend = true := by
  rcases countTick_next h with ⟨-, rfl⟩ | ⟨p, -, -, ⟨-, rfl⟩ | ⟨-, rfl⟩⟩ <;> simp [hpend]

/-- Where the clock of the first wait is after a microsecond. -/
theorem PullsLow.clock_of_tick (h : PullsLow c t0 s) (hb : fgTurn s = .blocked)
    (hq : s.irq = true → s.irqAge < s.cfg.irqLatUs) (ht : tick s.onTurn = .next t) : LowClock c t0 t := by
  have hm := tick_microsecond ht
  have hstep : t.fg.step = s.fg.step := (congrArg Foreground.step hm.fg :)
  have htick : t.de.tick = s.de.tick := (congrArg DelayEngine.tick (tick_de ht) :)
  have hnow' : t.nowUs = s.nowUs + 1 := (tick_sameOutside ht).2
  have hage : t.irqAge = if s.irq then s.irqAge + 1 else 0 := hm.irqAge
  cases h.clock with
  | start _ hsleep | ticked _ _ hsleep => cases (h.micro_of_awake hsleep).symm.trans hb
  | counting hst h0 hpend huev hperiod hcnt hnow =>
    have hirq : s.irq = false := by simp [State.irq, hpend]
    rw [hirq, if_neg Bool.false_ne_true] at hage
    rcases countTick_next ht with ⟨hstop, -⟩ | ⟨p, -, hp, ⟨hlast, rfl⟩ | ⟨hmore, rfl⟩⟩
    · cases h.run.symm.trans hstop
    · cases hperiod.symm.trans hp
      have hpend' : (expiry (setCnt 0 (passMicrosecond s.onTurn))).tmr.pend = true := by simp [huev]
      have hlast' : c.tResetLowUs ≤ s.tmr.cnt + 1 := hlast
      exact .pending (hstep ▸ hst) (htick ▸ h0) hpend' (hage.trans_le (Nat.zero_le _)) (by rw [hage, hnow', hnow]; omega)
    · cases hperiod.symm.trans hp
      exact .counting hst h0 hpend huev hperiod hmore (congrArg (· + 1) hnow)
  | pending hst h0 hpend hlat hnow =>
    have hirq : s.irq = true := by simp [State.irq, hpend, h.ie]
    rw [hirq, if_pos rfl] at hage
    exact .pending (hstep ▸ hst) (htick ▸ h0) (tick_keeps_pend ht hpend) (hage ▸ h.cfg ▸ hq hirq) (by omega)

/-- A microsecond before the release leaves the pulse going. -/
theorem PullsLow.of_tick (h : PullsLow c t0 s) (hb : fgTurn s = .blocked)
    (hq : s.irq = true → s.irqAge < s.cfg.irqLatUs) (ht : tick s.onTurn = .next t) : PullsLow c t0 t := by
  have hm := tick_microsecond ht
  obtain ⟨hrun, hie⟩ := hm.enables
  refine ⟨hm.ld.trans h.ld, (congrArg Foreground.op hm.fg :).trans h.op, ?_, (congrArg Foreground.yielded hm.fg :),
    hm.td ▸ h.done, hrun.trans h.run, hie.trans h.ie, hm.cfg.trans h.cfg, h.clock_of_tick hb hq ht⟩
  calc t.fg.stall = s.fg.stall - 1 := (congrArg Foreground.stall hm.fg :)
    _ = 0 := by rw [h.stall]

/-- The pulse goes on until the release, which comes no sooner than `T_RESET_LOW_US` after the start (42 R111). -/
theorem PullsLow.step_next (h : PullsLow c t0 s) (hrst : s.turn ≠ .rst) (hst : step s = .next t) :
    PullsLow c t0 t ∨ Released (t0 + c.tResetLowUs) t := by
  cases step_busyMove (by simp [h.op]) h.done hrst hst with
  | env same hsleep => exact .inl (h.of_sameBlock same hsleep)
  | irq hi => exact .inl (h.of_irq hi)
  | micro hm => exact h.of_micro hm
  | time hb hq ht => exact .inl (h.of_tick hb hq ht)

/-- The last microsecond of the pulse is at most `IRQ_LAT_US` behind its duration. -/
theorem PullsLow.nowUs_le (h : PullsLow c t0 s) : s.nowUs ≤ t0 + c.tResetLowUs + c.irqLatUs := by
  cases h.clock <;> omega

/-! ### `RESET` after its release -/

/-- No micro-operation leads to `B0`, the one that drives low (42 R110). -/
theorem Performs.step_ne_b0 (h : Performs s t) (hst : s.fg.step ≠ .b0) : t.fg.step ≠ .b0 := by
  cases h with
  | @waitExit site =>
    cases site with
    | waitUs => exact hst
    | _ => nofun
  | repeatEnd | b9 | pollEnd => exact hst
  | _ => nofun

/-- Of the micro-operations `B0` and `B2` alone write the latch (42 R110). -/
theorem Performs.dlatch_high (h : Performs s t) (hst : s.fg.step ≠ .b0) (hl : s.ld.dlatch = .high) :
    t.ld.dlatch = .high := by
  cases h with
  | @waitExit site => cases site <;> exact hl
  | b0 hb => exact absurd hb hst
  | b2 => rfl
  | _ => exact hl

/-- A released line stays released as long as the command runs. -/
theorem Released.step_next (h : Released t1 s) (hrst : s.turn ≠ .rst) (hst : Machine.step s = .next t)
    (hop : t.fg.op ≠ none) : Released t1 t := by
  have hnow := h.nowUs.trans (nowUs_le_of_step hrst hst)
  cases step_busyMove h.op h.done hrst hst with
  | env same =>
    have hstep : t.fg.step = s.fg.step := (congrArg Foreground.step same.fg :)
    exact ⟨hop, same.td ▸ h.done, same.ld ▸ h.dlatch, hstep ▸ h.step, hnow⟩
  | irq => exact ⟨hop, h.done, h.dlatch, h.step, hnow⟩
  | micro hm =>
    have hp := microStep_next hm
    exact ⟨hop, hp.td ▸ h.done, hp.dlatch_high h.step h.dlatch, hp.step_ne_b0 h.step, hnow⟩
  | time _ _ ht =>
    have hm := tick_microsecond ht
    have hstep : t.fg.step = s.fg.step := (congrArg Foreground.step hm.fg :)
    exact ⟨hop, hm.td ▸ h.done, hm.ld ▸ h.dlatch, hstep ▸ h.step, hnow⟩

/-! ### The whole pulse -/

/-- While no command is presented `RESET` runs before its release, after it, or runs no more. -/
structure ResetPulse (c : Params) (t0 : Nat) (s : State) : Prop where
  noCmd : s.noCmd = true
  place : PullsLow c t0 s ∨ Released (t0 + c.tResetLowUs) s ∨ s.fg.op = none

theorem ResetPulse.step_next (h : ResetPulse c t0 s) (hst : step s = .next t) : ResetPulse c t0 t := by
  refine ⟨noCmd_of_step h.noCmd hst, ?_⟩
  by_cases hop : t.fg.op = none
  · exact .inr (.inr hop)
  have hrst : s.turn ≠ .rst := by
    intro hr
    cases hst.symm.trans (step_of_rst hr)
    exact hop rfl
  rcases h.place with hlow | hreleased | hnone
  · exact (hlow.step_next hrst hst).imp_right .inl
  · exact .inr (.inl (hreleased.step_next hrst hst hop))
  · exact absurd (idle_op_of_step h.noCmd hnone hst) hop

theorem ResetPulse.of_steps {n : Nat} (h : ResetPulse c t0 s) (hn : steps n s = .next t) : ResetPulse c t0 t := by
  induction n generalizing s with
  | zero => cases hn; exact h
  | succ n ih =>
    obtain ⟨u, hu, ht⟩ := andThen_next.mp hn
    exact ih (h.step_next hu) ht

/-- The state an admitted `RESET` starts its pulse in. -/
theorem resetPulse_of_exec {s₁ : State} (hidle : idle s) (hcmd : s.noCmd = true) (hrun : s.tmr.run = true)
    (hie : s.tmr.ie = true) (hpend : s.tmr.pend = false) (h : exec .reset s = .next s₁) :
    ResetPulse s.cfg s.nowUs s₁ := by
  obtain ⟨-, hsleep, hstall, hyield⟩ := hidle
  cases exec_next h with
  | reset hdone hdir =>
    exact ⟨hcmd, .inl ⟨by rw [← hdir], rfl, hstall, hyield, hdone, hrun, hie, rfl, .start rfl hsleep hpend rfl⟩⟩

/-- Settles O26: before the release the line is pulled and the wait not over, after it neither holds. -/
theorem resetLowPulse : Obligations.ResetLowPulse := by
  intro s s₁ _ hidle hcmd hrun hie hpend h n t hn hop
  rcases ((resetPulse_of_exec hidle hcmd hrun hie hpend h).of_steps hn).place with hlow | hreleased | hnone
  · exact ⟨fun _ => padLow_iff.mpr (by rw [hlow.ld]; exact ⟨rfl, rfl⟩), fun hlt => absurd hlow.nowUs_le (by omega)⟩
  · exact ⟨fun hlt => absurd hreleased.nowUs (by omega), fun _ => padLow_eq_false_of_high hreleased.dlatch⟩
  · cases hnone.symm.trans hop

end Sys2Proof.Machine
end

section
/-! PROOF. The handler's single steps, and the admission of `ARM` and `WAITDONE`: the statements of 43_irq_state_machine
about one step. -/

namespace Sys2Proof.Machine

variable {s t : State}

/-! ### The handler, phase by phase -/

theorem smStep_of_not_entered {td : Descriptor} (h : phaseEntered td.phase = false) :
    smStep td = .error .reservedPhase := by
  obtain ⟨phase, nd, nlvl⟩ := td
  cases phase with
  | reset | singleStep | done => cases h
  | writeZero | writeOne | read | code6 | code7 => rfl

/-- The last expiry of a sequence: the descriptor becomes inert, beyond the prologue nothing else moves (43 R124). -/
theorem takeInterrupt_of_last (hp : s.td.phase = .singleStep) (hd : s.td.nextDelayUs = 0) :
    takeInterrupt s = .next (setTd { s.td with phase := .done } (settleIrq (irqPrologue s))) := by
  rw [takeInterrupt, smStep_of_last hp hd]
  rfl

/-- With a delay to come the handler drives the line and starts the period of that delay (43 R123, R125). -/
theorem takeInterrupt_of_delay (hp : s.td.phase = .reset ∨ s.td.phase = .singleStep) (hd : s.td.nextDelayUs ≠ 0) :
    takeInterrupt s = .next
      (setTd { s.td with phase := .singleStep, nextDelayUs := 0 }
        { driveOp s.td.nextLevel (settleIrq (irqPrologue s)) with
          tmr := (irqPrologue s).tmr.withPeriod s.td.nextDelayUs }) := by
  rw [takeInterrupt, smStep_of_delay hp hd]
  exact andThen_next.mpr ⟨_, reprogram_of_ne_zero hd, rfl⟩

theorem takeInterrupt_of_not_entered (h : phaseEntered s.td.phase = false) :
    takeInterrupt s = .refused .reservedPhase := by
  rw [takeInterrupt, smStep_of_not_entered h]

/-! ### `ARM` and `WAITDONE` -/

theorem active_eq_true {td : Descriptor} : td.active = true ↔ td.phase ≠ .done := by
  simp [Descriptor.active]

/-- A check of a guarded command refuses, or the rest of the admission guards it. -/
theorem guarded_check {c : Prop} [Decidable c] {r : Refusal} {rest : Option Refusal}
    {k : Host.Outcome State Fault Refusal} :
    guarded (if c then some r else rest) k = if c then .refused r else guarded rest k := by
  split <;> rfl

/-- The admission of `ARM` as one list of checks (43 R121). -/
theorem admitArm_eq (ph : Phase) (per nd : Nat) (nlvl : Level) (s : State) :
    admitArm ph per nd nlvl s =
      if s.td.active = true then some .sequenceActive
      else if ph = .code6 ∨ ph = .code7 then some .noSuchPhase
      else if ph = .writeZero ∨ ph = .writeOne ∨ ph = .read then some .reservedPhase
      else if ph = .done then some .badArm
      else if per = 0 then some .zeroPeriod
      else if ph = .reset ∧ nd = 0 then some .badArm
      else if ph = .reset ∧ nlvl = .low then some .badArm
      else none := by
  cases ph <;> rfl

/-- In an inert state the well-formed shapes are admitted (43 R121). -/
theorem admitArm_of_wf {ph : Phase} {per nd : Nat} {nlvl : Level} (hp : s.td.phase = .done)
    (hwf : (Instr.arm ph per nd nlvl).wf = true) : admitArm ph per nd nlvl s = none := by
  have hinert := active_eq_false.mpr hp
  cases ph with
  | reset =>
    simp only [Instr.wf, Instr.armOperandsOk, Bool.and_eq_true, decide_eq_true_eq] at hwf
    obtain ⟨⟨hper, hnd⟩, rfl⟩ := hwf
    simp [admitArm, admitArmPhase, hinert, hper, hnd]
  | singleStep =>
    have hper : per ≠ 0 := of_decide_eq_true hwf
    simp [admitArm, admitArmPhase, hinert, hper]
  | writeZero | writeOne | read | done | code6 | code7 => cases hwf

theorem microQ0_of_done (h : s.td.phase = .done) : microQ0 s = finish s := if_pos h

theorem microQ0_of_active (h : s.td.phase ≠ .done) : microQ0 s = goto .q0 (yieldTurn s) := if_neg h

/-! ### The statements -/

/-- Settles O30: the table of 43 R122 row by row. -/
theorem handlerTransition : Obligations.HandlerTransition := by
  intro td
  refine ⟨fun hp => ?_, fun hp hd => ?_, fun hp hd => smStep_of_delay (.inr hp) hd, smStep_of_done, fun hp => ?_⟩
  · rw [smStep, hp]
    rfl
  · rw [smStep_of_last hp hd, hd]
  · refine smStep_of_not_entered ?_
    rcases hp with hp | hp | hp | hp | hp <;> rw [hp] <;> rfl

/-- Settles O38: one equation of the handler a row. -/
theorem irqStepResult : Obligations.IrqStepResult := by
  intro s
  exact ⟨fun hp => ⟨_, takeInterrupt_of_done hp, rfl, rfl, rfl, rfl, rfl⟩,
    fun hp hd => ⟨_, takeInterrupt_of_last hp hd, rfl, rfl, rfl, rfl, rfl⟩,
    fun hp hd => ⟨_, takeInterrupt_of_delay hp hd, rfl, rfl, rfl, rfl, rfl⟩, takeInterrupt_of_not_entered⟩

/-- Settles O31: each of the three IRQ steps finds the descriptor the one before left. -/
theorem twoExpiriesReachDone : Obligations.TwoExpiriesReachDone := by
  intro s t u v s₂ s₃ htd ht htd₂ hu htd₃ hv
  rw [takeInterrupt_of_delay (by simp [htd]) (by simp [htd]), htd] at ht
  cases ht
  rw [takeInterrupt_of_last (by simp [htd₂]) (by simp [htd₂]), htd₂] at hu
  cases hu
  rw [takeInterrupt_of_done (by simp [htd₃])] at hv
  cases hv
  exact ⟨rfl, rfl, rfl, rfl, rfl, rfl, rfl, rfl, rfl, rfl, rfl, rfl⟩

/-- Settles O27: the first check of the table that fails decides, else `A0` is done. -/
theorem armAdmission : Obligations.ArmAdmission := by
  intro ph per nd nlvl s
  show guarded (admitArm ph per nd nlvl s) (microA0 ph per nd nlvl s) = _
  simp only [admitArm_eq, guarded_check, active_eq_true]
  split_ifs with hp hcode hreserved hdone hper hnd hlow
  case neg => exact microA0_next.mpr ⟨hper, rfl⟩
  all_goals rfl

/-- Settles O28: a well-formed `ARM` passes the admission, and `A0` writes descriptor and timer alone. -/
theorem armCompletes : Obligations.ArmCompletes := by
  intro ph per nd nlvl s hp hwf
  have hadmit := admitArm_of_wf hp hwf
  obtain ⟨-, hper, -⟩ := admitArm_none hadmit
  exact ⟨_, guarded_next.mpr ⟨hadmit, microA0_next.mpr ⟨hper, rfl⟩⟩, rfl, rfl, rfl, rfl, rfl⟩

/-- Settles O29: the accepting step does the first `Q0`. -/
theorem waitdonePolls : Obligations.WaitdonePolls := by
  intro s
  exact ⟨fun hp => congrArg Host.Outcome.next (microQ0_of_done (s := beginCommand .waitdone .q0 s) hp),
    fun hp => congrArg Host.Outcome.next (microQ0_of_active (s := beginCommand .waitdone .q0 s) hp)⟩

end Sys2Proof.Machine
end

section
/-! PROOF. How an armed sequence runs to its end, beside an idle foreground and beside `WAITDONE`: the runs of
43_irq_state_machine. -/

namespace Sys2Proof.Machine

variable {s t : State} {P P' Q R : State → Prop}

/-! ### Runs through states of one kind to a state of another -/

/-- The run from `s` reaches a state with `Q`, and every state before it has `P`. -/
def Until (P Q : State → Prop) (s : State) : Prop :=
  ∃ n t, steps n s = .next t ∧ Q t ∧ ∀ k < n, ∃ u, steps k s = .next u ∧ P u

theorem Until.mono (h : Until P Q s) (hP : ∀ u, P u → P' u) : Until P' Q s := by
  obtain ⟨n, t, ht, hQ, hthrough⟩ := h
  exact ⟨n, t, ht, hQ, fun k hk => (hthrough k hk).imp fun u hu => hu.imp_right (hP u)⟩

theorem Until.trans (h : Until P Q s) (hnext : ∀ t, Q t → Until P R t) : Until P R s := by
  obtain ⟨m, t, hm, hQ, hthrough⟩ := h
  obtain ⟨n, u, hn, hR, hthrough'⟩ := hnext t hQ
  refine ⟨m + n, u, (steps_add_of_next hm).trans hn, hR, fun k hk => ?_⟩
  by_cases hkm : k < m
  · exact hthrough k hkm
  · obtain ⟨j, rfl⟩ := Nat.exists_eq_add_of_le (Nat.not_lt.mp hkm)
    obtain ⟨v, hv, hP⟩ := hthrough' j (by omega)
    exact ⟨v, (steps_add_of_next hm).trans hv, hP⟩

theorem Until.of_step (hP : P s) (hstep : step s = .next t) (hQ : Q t) : Until P Q s := by
  refine ⟨1, t, steps_one hstep, hQ, fun k hk => ⟨s, ?_, hP⟩⟩
  obtain rfl : k = 0 := by omega
  rfl

/-! ### The states of a sequence -/

/-- The timer of a sequence, `c` microseconds into a period of `d` (43 R120, R123). -/
def Timer.running (d c : Nat) : Timer :=
  { period := some d, cnt := c, uevEn := true, run := true, ie := true, pend := false }

/-- The sequence is at the descriptor `td` and the line cells `ld`, with no script, and a foreground that leaves both
alone: idle with no word presented, or awake in `WAITDONE`. -/
structure SequenceAt (op : Option Opcode) (td : Descriptor) (ld : LineDriver) (t : State) : Prop where
  td : t.td = td
  ld : t.ld = ld
  turns : t.turns = []
  sleeping : t.fg.sleeping = false
  stall : t.fg.stall = 0
  place : (op = none ∧ t.cmd = none) ∨ (op = some .waitdone ∧ t.fg.step = .q0)
  op : t.fg.op = op

/-- In a period of `d` microseconds that started at `t0`, before its expiry. -/
structure Counting (op : Option Opcode) (td : Descriptor) (ld : LineDriver) (d t0 : Nat) (t : State) : Prop extends
    SequenceAt op td ld t where
  tmr : t.tmr = Timer.running d t.tmr.cnt
  cnt_lt : t.tmr.cnt < d
  nowUs : t.nowUs = t0 + t.tmr.cnt

/-- At the expiry of a period of `d` microseconds, at the time `now`, before the handler. -/
structure Expired (op : Option Opcode) (td : Descriptor) (ld : LineDriver) (d now : Nat) (t : State) : Prop extends
    SequenceAt op td ld t where
  tmr : t.tmr = { Timer.running d 0 with pend := true }
  nowUs : t.nowUs = now

/-- After the last handler of a sequence, at the time `now`: nothing is requested, and a busy-poll reads again. -/
structure Ended (op : Option Opcode) (td : Descriptor) (ld : LineDriver) (now : Nat) (t : State) : Prop extends
    SequenceAt op td ld t where
  quiet : quiet t
  yielded : t.fg.yielded = false
  nowUs : t.nowUs = now

variable {op : Option Opcode} {td : Descriptor} {ld : LineDriver} {d t0 now : Nat}

/-! ### One period -/

/-- With nothing requested `WAITDONE` reads the phase, once between two steps that can change it (43 R129). -/
theorem SequenceAt.reads_phase (h : SequenceAt (some .waitdone) td ld t) (hquiet : quiet t)
    (hyield : t.fg.yielded = false) : t.fg.step = .q0 ∧ step t = .next (microQ0 t) := by
  have hst : t.fg.step = .q0 := h.place.elim (fun ⟨hop, _⟩ => nomatch hop) And.right
  have hm : fgTurn t = .micro := fgTurn_micro.mpr ⟨by simp [h.op], h.sleeping, h.stall, hyield⟩
  exact ⟨hst, by rw [step_of_micro hquiet hm, microStep, hst]⟩

/-- With nothing requested, beside an active descriptor, a microsecond passes or `WAITDONE` reads once (43 R129). -/
theorem SequenceAt.step_eq (h : SequenceAt op td ld t) (hquiet : quiet t) (hactive : td.phase ≠ .done) :
    step t = tick t ∨ (t.fg.yielded = false ∧ step t = .next (yieldTurn t)) := by
  rcases h.place with ⟨rfl, hcmd⟩ | ⟨rfl, -⟩
  · exact .inl (step_of_blocked hquiet (fgTurn_of_idle_port h.op hcmd))
  · cases hy : t.fg.yielded with
    | true => exact .inl (step_of_blocked hquiet (by simp [fgTurn, h.op, hy]))
    | false =>
      obtain ⟨hst, hstep⟩ := h.reads_phase hquiet hy
      rw [hstep, microQ0_of_active (h.td ▸ hactive), goto_of_step (s := yieldTurn t) hst]
      exact .inr ⟨rfl, rfl⟩

theorem SequenceAt.of_tick (h : SequenceAt op td ld t) (tm : Timer) :
    SequenceAt op td ld { passMicrosecond t with tmr := tm } := by
  refine ⟨h.td, h.ld, h.turns, h.sleeping, ?_, h.place, h.op⟩
  show t.fg.stall - 1 = 0
  rw [h.stall]

theorem counting_of_fresh (h : SequenceAt op td ld t) (htmr : t.tmr = Timer.running d 0) (hd : d ≠ 0)
    (hnow : t.nowUs = t0) : Counting op td ld d t0 t :=
  ⟨h, by rw [htmr]; rfl, by rw [htmr]; exact Nat.pos_of_ne_zero hd, by rw [htmr]; exact hnow⟩

theorem Counting.quiet (h : Counting op td ld d t0 t) : quiet t := ⟨h.turns, by rw [State.irq, h.tmr]; rfl⟩

theorem Counting.yieldTurn (h : Counting op td ld d t0 t) : Counting op td ld d t0 (yieldTurn t) :=
  ⟨⟨h.td, h.ld, h.turns, h.sleeping, h.stall, h.place, h.op⟩, h.tmr, h.cnt_lt, h.nowUs⟩

theorem Timer.count_running {c : Nat} :
    (Timer.running d c).count d =
      if d ≤ c + 1 then { Timer.running d 0 with pend := true } else Timer.running d (c + 1) := by
  simp [Timer.count, Timer.running]

/-- A microsecond of the period is its last one, or one more of it has passed. -/
theorem Counting.tick (h : Counting op td ld d t0 t) :
    ∃ u, Machine.tick t = .next u ∧ u.nowUs = t.nowUs + 1 ∧
      (Expired op td ld d (t0 + d) u ∨ Counting op td ld d t0 u) := by
  have hrun : t.tmr.run = true := by rw [h.tmr]; rfl
  have hperiod : t.tmr.period = some d := by rw [h.tmr]; rfl
  have hcount : t.tmr.count d = _ := (congrArg (Timer.count · d) h.tmr).trans Timer.count_running
  have hlt := h.cnt_lt
  have hnow := h.nowUs
  refine ⟨_, tick_of_running hrun hperiod, rfl, ?_⟩
  rw [hcount]
  by_cases hlast : d ≤ t.tmr.cnt + 1
  · refine .inl ⟨h.of_tick _, if_pos hlast, ?_⟩
    show t.nowUs + 1 = t0 + d
    omega
  · rw [if_neg hlast]
    exact .inr ⟨h.of_tick _, rfl, Nat.not_le.mp hlast, congrArg (· + 1) hnow⟩

/-- What is left of a period: its microseconds, and before each a read of the phase. -/
def periodLeft (d t0 : Nat) (t : State) : Nat := 2 * (t0 + d - t.nowUs) + if t.fg.yielded then 0 else 1

/-- A period takes its duration, the descriptor and the line as they are. -/
theorem Counting.expires (h : Counting op td ld d t0 s) (hactive : td.phase ≠ .done) :
    Until (SequenceAt op td ld) (Expired op td ld d (t0 + d)) s := by
  refine Until.mono (P := Counting op td ld d t0) (steps_until (periodLeft d t0) ?_ h) fun _ => Counting.toSequenceAt
  intro t h
  rcases h.step_eq h.quiet hactive with hstep | ⟨hyield, hstep⟩
  · obtain ⟨u, hu, hnow, hnext⟩ := h.tick
    refine ⟨u, hstep.trans hu, hnext.imp_right fun hc => ⟨hc, ?_⟩⟩
    have hlt := hc.cnt_lt
    have hnow' := hc.nowUs
    unfold periodLeft
    split <;> split <;> omega
  · refine ⟨_, hstep, .inr ⟨h.yieldTurn, ?_⟩⟩
    simp [periodLeft, hyield]

/-! ### The handler at the end of a period -/

theorem Expired.step_eq (h : Expired op td ld d now t) : step t = takeInterrupt t :=
  step_of_irq h.turns (by rw [State.irq, h.tmr]; rfl)

/-- With a delay to come the handler writes the line and starts the next period (43 R123). -/
theorem Expired.drives (h : Expired op td ld d now t) (hp : td.phase = .reset) (hd : td.nextDelayUs ≠ 0) :
    ∃ u, step t = .next u ∧ u.nowUs = now ∧
      Counting op { td with phase := .singleStep, nextDelayUs := 0 } { ld with dlatch := td.nextLevel }
        td.nextDelayUs now u := by
  obtain rfl := h.td
  obtain rfl := h.ld
  refine ⟨_, h.step_eq.trans (takeInterrupt_of_delay (.inl hp) hd), h.nowUs,
    counting_of_fresh ⟨rfl, rfl, h.turns, rfl, h.stall, h.place, h.op⟩ ?_ hd h.nowUs⟩
  show { t.tmr with pend := false }.withPeriod t.td.nextDelayUs = _
  rw [h.tmr]
  rfl

/-- With no delay to come the handler ends the sequence (43 R124). -/
theorem Expired.ends (h : Expired op td ld d now t) (hp : td.phase = .singleStep) (hd : td.nextDelayUs = 0) :
    ∃ u, step t = .next u ∧ Ended op { td with phase := .done } ld now u := by
  obtain rfl := h.td
  exact ⟨_, h.step_eq.trans (takeInterrupt_of_last hp hd), ⟨rfl, h.ld, h.turns, rfl, h.stall, h.place, h.op⟩,
    ⟨h.turns, rfl⟩, rfl, h.nowUs⟩

/-! ### The whole sequence -/

/-- The first period of a sequence armed in `Reset` ends with the line released (43 R123). -/
theorem Counting.releases {per nd : Nat} (h : Counting op ⟨.reset, nd, .high⟩ ld per t0 s) (hnd : nd ≠ 0) :
    Until (SequenceAt op ⟨.reset, nd, .high⟩ ld)
      (fun u => u.nowUs = t0 + per ∧
        Counting op ⟨.singleStep, 0, .high⟩ { ld with dlatch := .high } nd (t0 + per) u) s :=
  (h.expires nofun).trans fun _ he =>
    have ⟨_, hstep, hreleased⟩ := he.drives rfl hnd
    .of_step he.toSequenceAt hstep hreleased

/-- The period after the release ends in `Done` (43 R124). -/
theorem Counting.ends (h : Counting op ⟨.singleStep, 0, .high⟩ ld d t0 s) :
    Until (SequenceAt op ⟨.singleStep, 0, .high⟩ ld) (Ended op ⟨.done, 0, .high⟩ ld (t0 + d)) s :=
  (h.expires nofun).trans fun _ he =>
    have ⟨_, hstep, hend⟩ := he.ends rfl rfl
    .of_step he.toSequenceAt hstep hend

/-- `WAITDONE` finds `Done` at its next read, and ends (43 R129). -/
theorem Ended.step_eq (h : Ended (some .waitdone) td ld now t) (hdone : td.phase = .done) :
    step t = .next (finish t) := by
  rw [(h.reads_phase h.quiet h.yielded).2, microQ0_of_done (h.td ▸ hdone)]

/-- An armed sequence that `WAITDONE` polls: the two periods, then the read that finds `Done`; awake all along. -/
theorem Counting.polled_to_end {per nd : Nat} (h : Counting (some .waitdone) ⟨.reset, nd, .high⟩ ld per t0 s)
    (hnd : nd ≠ 0) :
    Until (fun u => u.fg.sleeping = false)
      (fun u => u.fg.op = none ∧ u.td.phase = .done ∧ u.nowUs = t0 + per + nd ∧ u.fg.sleeping = false) s := by
  refine ((h.releases hnd).mono fun _ => SequenceAt.sleeping).trans fun t ⟨_, ht⟩ => ?_
  refine (ht.ends.mono fun _ => SequenceAt.sleeping).trans fun u hu => ?_
  exact .of_step hu.sleeping (hu.step_eq rfl) ⟨rfl, congrArg Descriptor.phase hu.td, hu.nowUs, hu.sleeping⟩

/-- An admitted `ARM` of `Reset` starts its first period, with nothing presented and with `WAITDONE` next alike. -/
theorem counting_of_arm {per nd : Nat} {s₁ : State} (hidle : idle s) (hturns : s.turns = [])
    (h : exec (.arm .reset per nd .high) s = .next s₁) :
    nd ≠ 0 ∧ (s.cmd = none → Counting none ⟨.reset, nd, .high⟩ s.ld per s.nowUs s₁) ∧
      ∀ s₂, exec .waitdone s₁ = .next s₂ → Counting (some .waitdone) ⟨.reset, nd, .high⟩ s.ld per s.nowUs s₂ := by
  obtain ⟨-, hsleep, hstall, -⟩ := hidle
  cases exec_next h with
  | arm _ hper hph =>
    obtain ⟨-, hnd, -⟩ := hph.resolve_right nofun
    refine ⟨hnd, fun hcmd => ?_, fun s₂ h₂ => ?_⟩
    · exact counting_of_fresh ⟨rfl, rfl, hturns, hsleep, hstall, .inl ⟨rfl, hcmd⟩, rfl⟩ rfl hper rfl
    · cases h₂.symm.trans ((waitdonePolls _).2 nofun)
      exact counting_of_fresh ⟨rfl, rfl, hturns, hsleep, hstall, .inr ⟨rfl, rfl⟩, rfl⟩ rfl hper rfl

/-! ### The statements -/

/-- Settles O32: the first period ends with the release, the second with `Done`. -/
theorem armedSequenceRuns : Obligations.ArmedSequenceRuns := by
  intro per nd s s₁ hidle hturns hcmd h
  obtain ⟨hnd, harmed, -⟩ := counting_of_arm hidle hturns h
  obtain ⟨n, t, hn, ⟨hnow, hreleased⟩, hthrough⟩ := (harmed hcmd).releases hnd
  obtain ⟨m, u, hm, hend, -⟩ := hreleased.ends
  exact ⟨n, m, t, u, hn, hnow, hreleased.td, hreleased.ld,
    fun k hk => (hthrough k hk).imp fun _ ⟨hv, hat⟩ => ⟨hv, congrArg Descriptor.phase hat.td, hat.ld⟩,
    hm, hend.nowUs, hend.td, hend.ld.trans hreleased.ld.symm⟩

/-- Settles O33: the two periods of the sequence, then the read of `WAITDONE` that finds `Done`. -/
theorem waitdoneEndsAtDone : Obligations.WaitdoneEndsAtDone := by
  intro per nd s s₁ s₂ hidle hturns h₁ h₂
  obtain ⟨hnd, -, hpolled⟩ := counting_of_arm hidle hturns h₁
  obtain ⟨n, t, hn, ⟨hop, hdone, hnow, hawake⟩, hthrough⟩ := (hpolled s₂ h₂).polled_to_end hnd
  refine ⟨n, t, hn, hop, hdone, hnow, fun k hk => ?_⟩
  rcases Nat.lt_or_eq_of_le hk with hk | rfl
  · exact hthrough k hk
  · exact ⟨t, hn, hawake⟩

end Sys2Proof.Machine
end

section
/-! PROOF. The timer port's commands as equations, and the statements of 44_timer_port. -/

namespace Sys2Proof.Machine

/-! ### `TSETP` and `TSTART`: the checks, then the write -/

/-- Behind its two checks `TSETP` is `REPROGRAM` and the end of the command (44 R140). -/
theorem exec_tsetp (imm : Nat) (s : State) :
    exec (.tsetp imm) s =
      if imm = 0 then .refused .zeroPeriod
      else if s.td.phase ≠ .done then .refused .timerInUse
      else .next (finish { setImm imm s with tmr := s.tmr.withPeriod imm }) := by
  show guarded (admitTsetp imm s) _ = _
  simp only [admitTsetp, guarded_check, active_eq_true]
  split_ifs with hi hp
  case neg => exact andThen_next.mpr ⟨_, reprogram_of_ne_zero hi, rfl⟩
  all_goals rfl

theorem exec_tstart (s : State) :
    exec .tstart s = if s.tmr.period = none then .refused .periodUnwritten else .next (finish (startTimer s)) :=
  guarded_check

/-! ### The statements -/

/-- Settles O34: the two checks in their order, then the fresh period. -/
theorem setPeriodResult : Obligations.SetPeriodResult := by
  intro imm s
  rw [exec_tsetp]
  refine ⟨fun hi => if_pos hi, fun hi hp => ?inUse, fun hi hp => ?admitted⟩
  case inUse => rw [if_neg hi, if_pos hp]
  case admitted => rw [if_neg hi, if_neg (not_not.mpr hp)]; rfl

/-- Settles O35: `TSTART` behind its one check; `TIEN` and `TCLRP` have none. -/
theorem timerControlBits : Obligations.TimerControlBits := by
  intro s
  rw [exec_tstart]
  exact ⟨fun hp => if_pos hp, fun hp => if_neg hp, rfl, rfl⟩

end Sys2Proof.Machine
end

section
/-! PROOF. The TICK step, the IRQ step and the WAKE step one by one: the statements of 60_exceptions about one step. -/

namespace Sys2Proof.Machine

variable {s t : State}

/-! ### The three steps -/

/-- A timer that runs before any period was written is refused (60 R152). -/
theorem tick_of_unwritten (hrun : s.tmr.run = true) (hp : s.tmr.period = none) :
    tick s = .refused .periodUnwritten := by
  simp [tick, countTick, hrun, hp]

/-- The handler and the foreground's program do not meet: a wait that sleeps is woken, and no more (60 R156, R163). -/
theorem takeInterrupt_sameSequencer (h : takeInterrupt s = .next t) :
    sameSequencer s t ∧ t.fg.stall = s.fg.stall ∧ t.resp = s.resp := by
  rcases takeInterrupt_next h with ⟨-, rfl⟩ | ⟨-, -, rfl⟩ | ⟨-, -, rfl⟩ <;>
    exact ⟨⟨rfl, rfl, rfl, rfl, rfl⟩, rfl, rfl⟩

/-- The handler drives the level it was armed with, in the direction the foreground left (43 R123, R125). -/
theorem takeInterrupt_dir_nextLevel (h : takeInterrupt s = .next t) :
    t.ld.dir = s.ld.dir ∧ t.td.nextLevel = s.td.nextLevel := by
  rcases takeInterrupt_next h with ⟨-, rfl⟩ | ⟨-, -, rfl⟩ | ⟨-, -, rfl⟩ <;> exact ⟨rfl, rfl⟩

theorem step_of_wake {ts : List Turn} (h : s.turns = .wake :: ts) : step s = .next (wake (setTurns ts s)) := by
  rw [step, machineStep, h]
  rfl

/-! ### The statements -/

/-- Settles O37: a stopped timer, one without a period, and one that counts or rolls over. -/
theorem tickCounts : Obligations.TickCounts := by
  intro s
  refine ⟨tick_of_unwritten, fun hwritten => ?_⟩
  cases hrun : s.tmr.run with
  | false =>
    exact ⟨_, tick_of_stopped hrun, rfl, fun _ => rfl, nofun, nofun, ⟨rfl, rfl, rfl, rfl, rfl⟩, rfl, rfl, rfl, rfl, rfl⟩
  | true =>
    obtain ⟨p, hp⟩ := Option.ne_none_iff_exists'.mp fun hnone => hwritten ⟨hrun, hnone⟩
    refine ⟨_, tick_of_running hrun hp, rfl, nofun, fun q _ hq hc => ?rollover, fun q _ hq hc => ?count,
      ⟨rfl, rfl, rfl, rfl, rfl⟩, rfl, rfl, rfl, rfl, rfl⟩ <;> cases hp.symm.trans hq
    case rollover => exact Timer.count_of_le hc
    case count => exact Timer.count_of_lt hc

/-- Settles O39: what the handler leaves alone of the foreground, of line and descriptor, of the timer, and outside. -/
theorem handlerFrame : Obligations.HandlerFrame := by
  intro s t h
  obtain ⟨hseq, hstall, hresp⟩ := takeInterrupt_sameSequencer h
  obtain ⟨hdir, hlevel⟩ := takeInterrupt_dir_nextLevel h
  obtain ⟨hrun, hie⟩ := takeInterrupt_sameEnables h
  obtain ⟨houtside, hnow⟩ := takeInterrupt_sameOutside h
  exact ⟨hseq, hdir, hrun, hie, hresp, hlevel, hnow, hstall, houtside.extLow, houtside.cmd, houtside.cfg⟩

/-- Settles O42: the turn is `wake`'s, in the state in which the script has moved on. -/
theorem wakeStepResult : Obligations.WakeStepResult := fun _ _ h => step_of_wake h

end Sys2Proof.Machine
end

section
/-! PROOF. After hardware reset nothing moves the block until a command is presented: the statement of
70_reset_and_hazards about the idle block. -/

namespace Sys2Proof.Machine

variable {s : State}

/-- The block's own cells are as hardware reset leaves them (10_state R32); the ghost clock and the inputs are free. -/
structure CellsAtReset (s : State) : Prop where
  ld : s.ld = State.reset.ld
  tmr : s.tmr = State.reset.tmr
  de : s.de = State.reset.de
  td : s.td = State.reset.td
  fg : s.fg = State.reset.fg
  resp : s.resp = State.reset.resp

theorem cellsAtReset_of_hardwareReset (s : State) : CellsAtReset (hardwareReset s) := by constructor <;> rfl

theorem CellsAtReset.onTurn (h : CellsAtReset s) : CellsAtReset s.onTurn := ⟨h.ld, h.tmr, h.de, h.td, h.fg, h.resp⟩

/-- The pin is an input, so the line is released. -/
theorem CellsAtReset.padLow (h : CellsAtReset s) : s.padLow = false := by rw [State.padLow, h.ld]; rfl

theorem CellsAtReset.irq (h : CellsAtReset s) : s.irq = false := by rw [State.irq, h.tmr]; rfl

/-- The foreground is awake already. -/
theorem CellsAtReset.wake (h : CellsAtReset s) : CellsAtReset (wake s) := by
  refine ⟨h.ld, h.tmr, h.de, h.td, ?_, h.resp⟩
  show { s.fg with sleeping := false } = _
  rw [h.fg]
  rfl

/-- There is no `STALL` to count down and no busy-poll to let read again. -/
theorem CellsAtReset.passMicrosecond (h : CellsAtReset s) : CellsAtReset (passMicrosecond s) := by
  refine ⟨h.ld, h.tmr, h.de, h.td, ?_, h.resp⟩
  show { s.fg with stall := s.fg.stall - 1, yielded := false } = _
  rw [h.fg]
  rfl

/-- With no interrupt requested and no word to accept, the block's own step is a microsecond of the stopped timer. -/
theorem CellsAtReset.own_step (h : CellsAtReset s) (hcmd : s.cmd = none) (hturn : s.turn = .go ∨ s.turn = .hold) :
    step s = .next (Machine.passMicrosecond s.onTurn) := by
  have hb : fgTurn s.onTurn = .blocked := fgTurn_of_idle_port (congrArg Foreground.op h.fg) hcmd
  rw [step_of_no_irq h.irq hturn, fgOrTick, hb]
  exact tick_of_stopped (congrArg Timer.run h.tmr)

/-- No turn but a `CMD` step moves a cell of the block: `EXT` writes an input, `WAKE` finds the foreground awake, a
further hardware reset writes the same values again, and the block's own step is time alone (70 R180). -/
theorem CellsAtReset.step_next (h : CellsAtReset s) (hcmd : s.noCmd = true) :
    ∃ t, step s = .next t ∧ CellsAtReset t := by
  have hport := (noCmd_iff.mp hcmd).1
  cases hturn : s.turn with
  | ext b =>
    exact ⟨setExt b s.onTurn, by rw [step_eq_takeTurn, hturn]; rfl, ⟨h.ld, h.tmr, h.de, h.td, h.fg, h.resp⟩⟩
  | wake => exact ⟨Machine.wake s.onTurn, by rw [step_eq_takeTurn, hturn]; rfl, h.onTurn.wake⟩
  | cmd w => exact absurd hturn (turn_ne_cmd_of_noCmd hcmd)
  | rst => exact ⟨_, step_of_rst hturn, cellsAtReset_of_hardwareReset _⟩
  | go => exact ⟨_, h.own_step hport (.inl hturn), h.onTurn.passMicrosecond⟩
  | hold => exact ⟨_, h.own_step hport (.inr hturn), h.onTurn.passMicrosecond⟩

theorem CellsAtReset.steps_next (h : CellsAtReset s) (hcmd : s.noCmd = true) (n : Nat) :
    ∃ t, steps n s = .next t ∧ CellsAtReset t := by
  induction n generalizing s with
  | zero => exact ⟨s, rfl, h⟩
  | succ n ih =>
    obtain ⟨u, hu, hcells⟩ := h.step_next hcmd
    obtain ⟨t, ht, hcells'⟩ := ih hcells (noCmd_of_step hcmd hu)
    exact ⟨t, andThen_next.mpr ⟨u, hu, ht⟩, hcells'⟩

/-- Settles O44: hardware reset leaves the cells so and presents no command, and every step keeps both. -/
theorem inertUntilCommand : Obligations.InertUntilCommand := by
  intro s n hcmd
  obtain ⟨t, ht, h⟩ := (cellsAtReset_of_hardwareReset s).steps_next hcmd n
  exact ⟨t, ht, h.ld, h.tmr, h.de, h.td, h.fg, h.resp, h.padLow, h.irq⟩

end Sys2Proof.Machine
end
